-- ==== Sys2Proof/Word.lean ====
section
/-! DEFINITION. The machine's value widths (`00_scope.md` R4, R5): bytes, 16-bit words, 12-bit address
immediates, nibbles, and the numbers of registers and keys. -/

namespace Sys2Proof

/-- An 8-bit value: a general register, a timer, a byte of memory (R4 `V_WIDTH`, `TIMER_WIDTH`). -/
abbrev Byte := BitVec 8

/-- A 16-bit value: I, pc, a stack entry, an instruction word (R4 `I_WIDTH`, `PC_WIDTH`, `STACK_WIDTH`). -/
abbrev Word := BitVec 16

/-- The 12-bit immediate NNN (`30_encoding.md` R71). -/
abbrev Addr := BitVec 12

/-- A 4-bit field of an instruction word (`30_encoding.md` R71). -/
abbrev Nibble := BitVec 4

/-- A register number: every one of the 16 that can be encoded exists (`10_state.md` R20). -/
abbrev Reg := Fin 16

/-- A logical key code: the code port is 4 bits wide (`40_instruction_cycle.md` R95). -/
abbrev Key := Fin 16

/-- The flag register VF is V[15] (`10_state.md` R21). -/
abbrev VF : Reg := 15

/-- The 80 bytes of the parameter FONT (`10_state.md` R35). -/
abbrev Font := Vector Byte 80

end Sys2Proof
end

