-- ==== Sys2Proof/Decode.lean ====
section
/-! DEFINITION. Fields of an instruction word (`30_encoding.md` R71), the decoder of R74, total on every word
and every byte string, and the encoder written from the same rows. -/

namespace Sys2Proof

/-- Why a decoder answers no instruction. -/
inductive DecodeError where
  /-- The word matches no row of the opcode map (`30_encoding.md` R75). -/
  | illegal (w : Word)
  /-- Fewer than the two bytes an instruction takes (`30_encoding.md` R70). -/
  | truncated
  deriving DecidableEq, Repr

/-- `op`: bits 15 to 12 (R71). -/
def fieldOp (w : Word) : Nibble := w.extractLsb' 12 4

/-- `X`: bits 11 to 8, a register number (R71). -/
def fieldX (w : Word) : Reg := (w.extractLsb' 8 4).toFin

/-- `Y`: bits 7 to 4, a register number (R71). -/
def fieldY (w : Word) : Reg := (w.extractLsb' 4 4).toFin

/-- `N`: bits 3 to 0 (R71). -/
def fieldN (w : Word) : Nibble := w.extractLsb' 0 4

/-- `KK`: bits 7 to 0 (R71). -/
def fieldKK (w : Word) : Byte := w.extractLsb' 0 8

/-- `NNN`: bits 11 to 0 (R71). -/
def fieldNNN (w : Word) : Addr := w.extractLsb' 0 12

/-- Group 0: two fixed words, every other 0NNN is illegal (R74, R76). -/
def decodeGroup0 (w : Word) : Except DecodeError Instr :=
  if w = 0x00E0 then .ok .cls
  else if w = 0x00EE then .ok .ret
  else .error (.illegal w)

/-- Group 8: the low nibble selects the operation (R74). -/
def decodeGroup8 (w : Word) : Except DecodeError Instr :=
  match (fieldN w).toNat with
  | 0x0 => .ok (.ldReg (fieldX w) (fieldY w))
  | 0x1 => .ok (.orReg (fieldX w) (fieldY w))
  | 0x2 => .ok (.andReg (fieldX w) (fieldY w))
  | 0x3 => .ok (.xorReg (fieldX w) (fieldY w))
  | 0x4 => .ok (.addReg (fieldX w) (fieldY w))
  | 0x5 => .ok (.subReg (fieldX w) (fieldY w))
  | 0x6 => .ok (.shr (fieldX w) (fieldY w))
  | 0x7 => .ok (.subnReg (fieldX w) (fieldY w))
  | 0xE => .ok (.shl (fieldX w) (fieldY w))
  | _   => .error (.illegal w)

/-- Group E: the low byte selects the key test (R74). -/
def decodeGroupE (w : Word) : Except DecodeError Instr :=
  match (fieldKK w).toNat with
  | 0x9E => .ok (.skp (fieldX w))
  | 0xA1 => .ok (.sknp (fieldX w))
  | _    => .error (.illegal w)

/-- Group F: the low byte selects the operation (R74). -/
def decodeGroupF (w : Word) : Except DecodeError Instr :=
  match (fieldKK w).toNat with
  | 0x07 => .ok (.ldVxDt (fieldX w))
  | 0x0A => .ok (.ldVxK (fieldX w))
  | 0x15 => .ok (.ldDtVx (fieldX w))
  | 0x18 => .ok (.ldStVx (fieldX w))
  | 0x1E => .ok (.addI (fieldX w))
  | 0x29 => .ok (.ldF (fieldX w))
  | 0x33 => .ok (.ldB (fieldX w))
  | 0x55 => .ok (.storeRegs (fieldX w))
  | 0x65 => .ok (.loadRegs (fieldX w))
  | _    => .error (.illegal w)

/-- The decoder of R74: select by the top four bits, then by a secondary field; a word of no row is
illegal (R75). 5XYn and 9XYn with n other than 0 are illegal (R76). -/
def decodeWord (w : Word) : Except DecodeError Instr :=
  match (fieldOp w).toNat with
  | 0x0 => decodeGroup0 w
  | 0x1 => .ok (.jp (fieldNNN w))
  | 0x2 => .ok (.call (fieldNNN w))
  | 0x3 => .ok (.seImm (fieldX w) (fieldKK w))
  | 0x4 => .ok (.sneImm (fieldX w) (fieldKK w))
  | 0x5 => if fieldN w = 0 then .ok (.seReg (fieldX w) (fieldY w)) else .error (.illegal w)
  | 0x6 => .ok (.ldImm (fieldX w) (fieldKK w))
  | 0x7 => .ok (.addImm (fieldX w) (fieldKK w))
  | 0x8 => decodeGroup8 w
  | 0x9 => if fieldN w = 0 then .ok (.sneReg (fieldX w) (fieldY w)) else .error (.illegal w)
  | 0xA => .ok (.ldI (fieldNNN w))
  | 0xB => .ok (.jpV0 (fieldNNN w))
  | 0xC => .ok (.rnd (fieldX w) (fieldKK w))
  | 0xD => .ok (.drw (fieldX w) (fieldY w) (fieldN w))
  | 0xE => decodeGroupE w
  | 0xF => decodeGroupF w
  | _   => .error (.illegal w)

/-- Two bytes as one word, the byte at the lower address in bits 15 to 8 (`20_memory.md` R52). -/
def joinBytes (hi lo : Byte) : Word := hi ++ lo

/-- The byte of a word that lies at the lower address: bits 15 to 8 (`20_memory.md` R52). -/
def highByte (w : Word) : Byte := w.extractLsb' 8 8

/-- The byte of a word that lies at the higher address: bits 7 to 0 (`20_memory.md` R52). -/
def lowByte (w : Word) : Byte := w.extractLsb' 0 8

/-- The decoder on bytes as memory holds them: one instruction and the bytes after it. -/
def decode : List Byte → Except DecodeError (Instr × List Byte)
  | hi :: lo :: rest =>
    match decodeWord (joinBytes hi lo) with
    | .ok i    => .ok (i, rest)
    | .error e => .error e
  | _ => .error .truncated

/-- Word of the format NNN (R72). -/
def encodeNNN (op : Nibble) (nnn : Addr) : Word := op ++ nnn

/-- Word of the format XKK, and of the format X with its secondary opcode in KK (R72). -/
def encodeXKK (op : Nibble) (x : Reg) (kk : Byte) : Word := op ++ BitVec.ofFin (w := 4) x ++ kk

/-- Word of the format XYN, and of the format XY with its secondary opcode in N (R72). -/
def encodeXYN (op : Nibble) (x y : Reg) (n : Nibble) : Word :=
  op ++ BitVec.ofFin (w := 4) x ++ BitVec.ofFin (w := 4) y ++ n

/-- The word of an instruction, from its row of R74. -/
def encode : Instr → Word
  | .cls           => 0x00E0
  | .ret           => 0x00EE
  | .jp nnn        => encodeNNN 0x1 nnn
  | .call nnn      => encodeNNN 0x2 nnn
  | .seImm x kk    => encodeXKK 0x3 x kk
  | .sneImm x kk   => encodeXKK 0x4 x kk
  | .seReg x y     => encodeXYN 0x5 x y 0x0
  | .ldImm x kk    => encodeXKK 0x6 x kk
  | .addImm x kk   => encodeXKK 0x7 x kk
  | .ldReg x y     => encodeXYN 0x8 x y 0x0
  | .orReg x y     => encodeXYN 0x8 x y 0x1
  | .andReg x y    => encodeXYN 0x8 x y 0x2
  | .xorReg x y    => encodeXYN 0x8 x y 0x3
  | .addReg x y    => encodeXYN 0x8 x y 0x4
  | .subReg x y    => encodeXYN 0x8 x y 0x5
  | .shr x y       => encodeXYN 0x8 x y 0x6
  | .subnReg x y   => encodeXYN 0x8 x y 0x7
  | .shl x y       => encodeXYN 0x8 x y 0xE
  | .sneReg x y    => encodeXYN 0x9 x y 0x0
  | .ldI nnn       => encodeNNN 0xA nnn
  | .jpV0 nnn      => encodeNNN 0xB nnn
  | .rnd x kk      => encodeXKK 0xC x kk
  | .drw x y n     => encodeXYN 0xD x y n
  | .skp x         => encodeXKK 0xE x 0x9E
  | .sknp x        => encodeXKK 0xE x 0xA1
  | .ldVxDt x      => encodeXKK 0xF x 0x07
  | .ldVxK x       => encodeXKK 0xF x 0x0A
  | .ldDtVx x      => encodeXKK 0xF x 0x15
  | .ldStVx x      => encodeXKK 0xF x 0x18
  | .addI x        => encodeXKK 0xF x 0x1E
  | .ldF x         => encodeXKK 0xF x 0x29
  | .ldB x         => encodeXKK 0xF x 0x33
  | .storeRegs x   => encodeXKK 0xF x 0x55
  | .loadRegs x    => encodeXKK 0xF x 0x65

/-- The bytes of an instruction as memory holds them, the lower address first (`20_memory.md` R52). -/
def encodeBytes (i : Instr) : List Byte := [highByte (encode i), lowByte (encode i)]

/-- The word whose bits are `w` as `opcode_table.json` numbers them, bits at and above `nbits` zero. -/
def tableWord (nbits w : Nat) : Word := BitVec.ofNat 16 (w % 2 ^ nbits)

/-- What the decoder reads from the table's word, laid out in memory's byte order. -/
def decodeTableWord (nbits w : Nat) : Option Instr :=
  match decode [highByte (tableWord nbits w), lowByte (tableWord nbits w)] with
  | .ok (i, _) => some i
  | .error _   => none

end Sys2Proof
end

