-- ==== Sys2Proof/Config.lean ====
section
/-! DEFINITION. The implementation parameters (`00_scope.md` R4) and the one free value of the machine,
the random byte of CXKK. -/

namespace Sys2Proof

/-- `MEM_SIZE`: 4096 bytes, addresses 0x000 to 0xFFF (R4). -/
def Config.memSize : Nat := 4096

/-- `PROG_BASE`: load address and reset value of pc (R4). -/
def Config.progBase : Nat := 0x200

/-- `STACK_DEPTH`: 16 entries (R4, decision D6). -/
def Config.stackDepth : Nat := 16

/-- `GLYPH_BYTES`: 5 bytes per glyph (R4). -/
def Config.glyphBytes : Nat := 5

/-- The spec's default for the OPEN parameter `FONT[0..79]` (`10_state.md` R35, glyph 0 to glyph F, one
line a glyph). PRESUMED, unsafe (log entry 4): R35 marks it as general knowledge of the CHIP-8 family. The
machine reads the font from its own constant field `State.font`, so only a claim about `State.reset`
itself can rest on these numbers. -/
def Config.defaultFont : Font :=
  #v[
     0xF0, 0x90, 0x90, 0x90, 0xF0,
     0x20, 0x60, 0x20, 0x20, 0x70,
     0xF0, 0x10, 0xF0, 0x80, 0xF0,
     0xF0, 0x10, 0xF0, 0x10, 0xF0,
     0x90, 0x90, 0xF0, 0x10, 0x10,
     0xF0, 0x80, 0xF0, 0x10, 0xF0,
     0xF0, 0x80, 0xF0, 0x90, 0xF0,
     0xF0, 0x10, 0x20, 0x40, 0x40,
     0xF0, 0x90, 0xF0, 0x90, 0xF0,
     0xF0, 0x90, 0xF0, 0x10, 0xF0,
     0xF0, 0x90, 0xF0, 0x90, 0x90,
     0xE0, 0x90, 0xE0, 0x90, 0xE0,
     0xF0, 0x80, 0x80, 0x80, 0xF0,
     0xE0, 0x90, 0x90, 0x90, 0xE0,
     0xF0, 0x80, 0xF0, 0x80, 0xF0,
     0xF0, 0x80, 0xF0, 0x80, 0x80]

/-- The free 8-bit draw `rnd` of CXKK (`42_alu.md` R141, decision D18): the byte answered to the n-th draw.
No body, so no proof can see a value of it: a free value under no law. DESIGN CHOICE, safe (log entry 5). -/
opaque Config.rnd : Nat → Byte

end Sys2Proof
end

