-- ==== Sys2Proof/Machine/State.lean ====
section
/-! DEFINITION. Everything the machine remembers (`10_state.md` R20 to R31), the host's events and the outputs
(`40_instruction_cycle.md` R90), the reasons a step can stop, and the state after power-on and reset (R33). -/

namespace Sys2Proof.Machine

/-- The three architected run-time faults (`60_exceptions.md` R200). -/
inductive Cause where
  /-- The fetched word matches no row of the opcode map (R201). -/
  | illegalOpcode
  /-- 00EE with an empty stack (R202). -/
  | stackUnderflow
  /-- 2NNN with a full stack (R203). -/
  | stackOverflow
  deriving DecidableEq, Repr

/-- What fault entry records: FAULT, FAULT_ADDR, FAULT_WORD (`10_state.md` R30). -/
structure FaultRecord where
  /-- FAULT. -/
  cause : Cause
  /-- FAULT_ADDR: the address the faulting instruction was fetched from. -/
  addr  : Word
  /-- FAULT_WORD: its instruction word. -/
  word  : Word
  deriving DecidableEq, Repr

/-- The reply to a `load_program` event (`40_instruction_cycle.md` R97). -/
inductive LoadReply where
  | ok
  /-- The program is longer than 3584 bytes (`60_exceptions.md` R204). -/
  | loadOverflow
  deriving DecidableEq, Repr

/-- The five events the host can raise (`40_instruction_cycle.md` R90). -/
inductive Event where
  | reset
  | loadProgram (bytes : List Byte)
  | tick (n : Nat)
  | keyDown (code : Key)
  | keyUp (code : Key)
  deriving DecidableEq, Repr

/-- Memory as the bytes that differ from what an unlisted address reads as, in one canonical form
(`Memory.wf`): addresses strictly rising, below 4096, no entry equal to the unlisted value. -/
abbrev Memory := List Host.Cell

/-- The framebuffer: 32 rows of 64 pixels, `fb[y][x]` (`10_state.md` R27). -/
abbrev Screen := Vector (Vector Bool 64) 32

/-- The machine's state. The fields from `v` to `tone` are the spec's (R20 to R31); the fields after them are
the model's own: the two pulse outputs, the sequencer's loop counter, and the inputs that come from outside. -/
structure State where
  /-- V[0] to V[15] (R20). -/
  v       : Vector Byte 16
  /-- I, the index register (R22). -/
  index   : Word
  /-- pc, the program counter (R23). -/
  pc      : Word
  /-- MEM (R24), the bytes that differ from the reset contents. -/
  mem     : Memory
  /-- STACK[0..SP-1], bottom first; SP is its length (R25). -/
  stack   : List Word
  /-- DT, the delay timer (R26). -/
  dt      : Byte
  /-- ST, the sound timer (R26). -/
  st      : Byte
  /-- FB, the framebuffer (R27). -/
  fb      : Screen
  /-- KEYS[0..15] (R28). -/
  keys    : Vector Bool 16
  /-- KW_VALID and KW_REG: the register a pending key wait captures, none when no request is pending (R29). -/
  keyWait : Option Reg
  /-- FAULT with FAULT_ADDR and FAULT_WORD, none when the machine is not halted (R30). -/
  fault   : Option FaultRecord
  /-- TONE (R31). -/
  tone    : Bool
  /-- PRESENT, a pulse (R31): true only right after the step that ended a tick. Log entry 3. -/
  present : Bool
  /-- The reply to `load_program` (R90, R97): some only right after the step that took it. Log entry 3. -/
  reply   : Option LoadReply
  /-- The tick in progress and how many instructions its batch may still run (R91); none between ticks.
  Log entry 2. -/
  tick    : Option Nat
  /-- The events the host still has to raise, oldest first (R90, R99). Log entry 1. -/
  inbox   : List Event
  /-- The parameter FONT[0..79] (R4, R35); no step changes it. Log entry 4. -/
  font    : Font
  /-- How many random bytes have been drawn (R141); indexes `Config.rnd`. Log entry 5. -/
  draws   : Nat
  deriving DecidableEq, Repr

/-- The three undefined points (`60_exceptions.md` R205). R8 requires a model to stop at them by name; the
hardware detects none of them. -/
inductive Fault where
  /-- DXYN, FX33, FX55 or FX65 with a data address above 0xFFF (`20_memory.md` R51). Safe: the model stops
  where the hardware does something unspecified. -/
  | memOutOfRange
  /-- The fetch step with pc above 0xFFE (`40_instruction_cycle.md` R92). Safe: as above. -/
  | fetchOutOfRange
  /-- EX9E or EXA1 with a key number above 15 (`45_timers_and_input.md` R186). Safe: as above. -/
  | keyIndexOutOfRange
  deriving DecidableEq, Repr

/-- Why the model gives an instruction no meaning. -/
inductive Refusal where
  /-- Raised by an arm of `exec` whose instruction has no meaning yet. Safe. No arm raises it now. -/
  | notModelled (mnemonic : String)
  deriving DecidableEq, Repr

/-- A screen with every pixel clear. -/
def blankScreen : Screen := Vector.replicate 32 (Vector.replicate 64 false)

/-- The state after power-on (`10_state.md` R33, R34): what the `reset` event leaves, with the 16 key flags
clear, no tick in progress and no host event to come. The font is the spec's default table (log entry 4). -/
def State.reset : State where
  v       := Vector.replicate 16 0
  index   := 0
  pc      := 0x200
  mem     := []
  stack   := []
  dt      := 0
  st      := 0
  fb      := blankScreen
  keys    := Vector.replicate 16 false
  keyWait := none
  fault   := none
  tone    := false
  present := false
  reply   := none
  tick    := none
  inbox   := []
  font    := Config.defaultFont
  draws   := 0

end Sys2Proof.Machine
end

