-- ==== Sys2Proof/Machine/Flags.lean ====
section
/-! DEFINITION. The values VF takes (`10_state.md` R21, `42_alu.md` R142), and the timers' count-down. -/

namespace Sys2Proof.Machine

/-- VF is written with 1 or 0 (`10_state.md` R21). -/
def flagByte (c : Bool) : Byte := if c then 1 else 0

/-- Carry out of an addition: the exact sum exceeds 255 (`42_alu.md` R136). -/
def carryFlag (a b : Byte) : Byte := flagByte (decide (255 < a.toNat + b.toNat))

/-- No borrow, strict: the minuend is greater than the subtrahend, so equality gives 0 (`42_alu.md` R137, R139). -/
def noBorrowFlag (minuend subtrahend : Byte) : Byte := flagByte (decide (subtrahend.toNat < minuend.toNat))

/-- The bit a right shift by one loses: bit 0 (`42_alu.md` R138). -/
def shrFlag (b : Byte) : Byte := flagByte (b.getLsbD 0)

/-- The bit a left shift by one loses: bit 7 (`42_alu.md` R140). -/
def shlFlag (b : Byte) : Byte := flagByte (b.getLsbD 7)

/-- One count of a timer: a timer at 0 stays 0 (`40_instruction_cycle.md` R93). -/
def countDown (t : Byte) : Byte := if t = 0 then 0 else t - 1

end Sys2Proof.Machine
end

