-- ==== Sys2Proof/Machine/Operands.lean ====
section
/-! DEFINITION. Operand forms (`30_encoding.md` R73, `43_index_and_memory.md` R150): zero extension, the
effective address, the decimal digits, the pixels a sprite covers. -/

namespace Sys2Proof.Machine

/-- zext_16 of the 12-bit immediate NNN (R73). -/
def zextAddr (nnn : Addr) : Word := nnn.setWidth 16

/-- zext_16 of a register's value (`00_scope.md` R6). -/
def zextByte (b : Byte) : Word := b.setWidth 16

/-- zext_8 of a key code (`40_instruction_cycle.md` R95). -/
def keyByte (k : Key) : Byte := BitVec.ofNat 8 k.val

/-- The effective address I + k, an unbounded integer that is not wrapped (R150, `20_memory.md` R51). -/
def effAddr (index : Word) (k : Nat) : Nat := index.toNat + k

/-- The three decimal digits of a byte, hundreds first, by floor division at every step
(`43_index_and_memory.md` R154). -/
def decimalDigits (b : Byte) : List Byte :=
  [BitVec.ofNat 8 (b.toNat / 100), BitVec.ofNat 8 (b.toNat / 10 % 10), BitVec.ofNat 8 (b.toNat % 10)]

/-- The address of the glyph numbered by a register's value: five times it, with no mask
(`43_index_and_memory.md` R153). -/
def glyphAddr (b : Byte) : Word := BitVec.ofNat 16 (b.toNat * Config.glyphBytes)

/-- A framebuffer position: column, row. -/
abbrev Pixel := Fin 64 × Fin 32

/-- The pixel a sprite's column `col` and row `row` land on: both sums wrap, columns modulo 64 and rows
modulo 32 (`44_display.md` R171). -/
def pixelAt (x0 y0 : Byte) (col row : Nat) : Pixel :=
  (⟨(x0.toNat + col) % 64, Nat.mod_lt _ (by decide)⟩, ⟨(y0.toNat + row) % 32, Nat.mod_lt _ (by decide)⟩)

/-- The columns of a sprite row whose bit is 1, left to right: bit 7 is column 0 (`44_display.md` R171,
decision D4). -/
def litColumns (b : Byte) : List Nat := (List.range 8).filter (fun col => b.getLsbD (7 - col))

/-- The pixels the sprite row `row` inverts, left to right. -/
def rowPixels (x0 y0 : Byte) (row : Nat) (b : Byte) : List Pixel :=
  (litColumns b).map (fun col => pixelAt x0 y0 col row)

/-- The pixels the sprite inverts, rows outer and columns inner (`44_display.md` R171); `row` is the number of
the first row of `bytes`. -/
def spritePixels (x0 y0 : Byte) (row : Nat) : List Byte → List Pixel
  | []      => []
  | b :: bs => rowPixels x0 y0 row b ++ spritePixels x0 y0 (row + 1) bs

end Sys2Proof.Machine
end

