-- ==== Sys2Proof/Machine/Ops.lean ====
section
/-! DEFINITION. The named operations over registers, memory, the call stack and the framebuffer, and fault
entry (`60_exceptions.md` R208) as one shared operation. There is no return from a fault (R209). -/

namespace Sys2Proof.Machine

/-! ### Memory as a canonical list -/

/-- What an address that memory does not list reads as: the reset contents, FONT at 0x000 to 0x04F and zero
above (`10_state.md` R33, R35). -/
def unlistedByte (font : Font) (a : Nat) : Byte := if h : a < 80 then font[a] else 0

/-- The listed byte of an address, if any. -/
def Memory.lookup : Memory → Nat → Option Byte
  | [], _ => none
  | (b, v) :: rest, a => if a = b then some v else Memory.lookup rest a

/-- The byte at an address. -/
def Memory.read (font : Font) (m : Memory) (a : Nat) : Byte := (Memory.lookup m a).getD (unlistedByte font a)

/-- List a byte at its place in the rising order, replacing the address's former entry. -/
def Memory.insert : Memory → Nat → Byte → Memory
  | [], a, v => [(a, v)]
  | (b, w) :: rest, a, v =>
    if a < b then (a, v) :: (b, w) :: rest
    else if a = b then (a, v) :: rest
    else (b, w) :: Memory.insert rest a v

/-- Drop the entry of an address. -/
def Memory.erase (m : Memory) (a : Nat) : Memory := m.filter (fun c => c.1 != a)

/-- Store a byte, keeping the canonical form: the value an unlisted address reads as is not listed. -/
def Memory.write (font : Font) (m : Memory) (a : Nat) (v : Byte) : Memory :=
  if v = unlistedByte font a then Memory.erase m a else Memory.insert m a v

/-- Store bytes at rising addresses from `a`. -/
def Memory.writeAll (font : Font) (m : Memory) (a : Nat) : List Byte → Memory
  | []      => m
  | b :: bs => Memory.writeAll font (Memory.write font m a b) (a + 1) bs

/-- The canonical form: addresses strictly rising and inside the address space, no entry equal to what an
unlisted address reads as. -/
abbrev Memory.wf (font : Font) (m : Memory) : Prop :=
  m.Pairwise (fun c d => c.1 < d.1) ∧ ∀ c ∈ m, c.1 < Config.memSize ∧ c.2 ≠ unlistedByte font c.1

/-! ### Registers -/

/-- V[r] (`00_scope.md` R7). -/
def State.getV (s : State) (r : Reg) : Byte := s.v[r]

/-- V[r] <- b (`00_scope.md` R7). -/
def State.setV (s : State) (r : Reg) (b : Byte) : State := { s with v := s.v.set r b }

/-- V[k] <- bytes[k] for each k below the number of bytes; the other registers keep their values
(`43_index_and_memory.md` R156). -/
def State.setFirstV (s : State) (bytes : List Byte) : State :=
  { s with v := Vector.ofFn (fun r : Reg => bytes.getD r.val (s.getV r)) }

/-- The values of V[0] to V[n-1] (`43_index_and_memory.md` R155). -/
def State.firstV (s : State) (n : Nat) : List Byte := s.v.toList.take n

def State.setIndex (s : State) (a : Word) : State := { s with index := a }

def State.setPc (s : State) (a : Word) : State := { s with pc := a }

def State.setDt (s : State) (b : Byte) : State := { s with dt := b }

def State.setSt (s : State) (b : Byte) : State := { s with st := b }

def State.setFb (s : State) (fb : Screen) : State := { s with fb := fb }

def State.setMem (s : State) (m : Memory) : State := { s with mem := m }

def State.setStack (s : State) (st : List Word) : State := { s with stack := st }

def State.setKeys (s : State) (ks : Vector Bool 16) : State := { s with keys := ks }

def State.setKeyWait (s : State) (k : Option Reg) : State := { s with keyWait := k }

def State.setTick (s : State) (t : Option Nat) : State := { s with tick := t }

def State.setInbox (s : State) (es : List Event) : State := { s with inbox := es }

def State.setReply (s : State) (r : Option LoadReply) : State := { s with reply := r }

def State.setTone (s : State) (b : Bool) : State := { s with tone := b }

def State.setPresent (s : State) (b : Bool) : State := { s with present := b }

/-- The pulse outputs go back to rest: PRESENT is a pulse (`10_state.md` R31), and so is the reply to a load. -/
def State.quiet (s : State) : State := { s with present := false, reply := none }

/-- Skip: pc moves over one more instruction when the condition holds, modulo 65536
(`41_control_transfer.md` R110, R114). -/
def State.skipIf (s : State) (c : Bool) : State := if c then s.setPc (s.pc + 2) else s

/-! ### The random source -/

/-- draw(): the free byte of this draw (`42_alu.md` R141). -/
def State.drawnByte (s : State) : Byte := Config.rnd s.draws

/-- One draw is consumed (`42_alu.md` R141). -/
def State.useDraw (s : State) : State := { s with draws := s.draws + 1 }

/-! ### Memory accesses of the machine -/

/-- The byte memory holds at an address, whatever the address. -/
def State.peek (s : State) (a : Nat) : Byte := Memory.read s.font s.mem a

/-- MemRead(addr, 1): none where the address is above 0xFFF (`20_memory.md` R51). -/
def State.memRead (s : State) (a : Nat) : Option Byte := if a < Config.memSize then some (s.peek a) else none

/-- MemWrite(addr, 1, v): none where the address is above 0xFFF (`20_memory.md` R51). -/
def State.memWrite (s : State) (a : Nat) (v : Byte) : Option State :=
  if a < Config.memSize then some (s.setMem (Memory.write s.font s.mem a v)) else none

/-- Read `n` bytes at rising addresses from `a`; none where one of them is above 0xFFF. -/
def State.loadBytes (s : State) (a : Nat) : Nat → Option (List Byte)
  | 0     => some []
  | n + 1 =>
    match s.memRead a, s.loadBytes (a + 1) n with
    | some b, some bs => some (b :: bs)
    | _, _            => none

/-- Write bytes at rising addresses from `a`; none where one of them is above 0xFFF. -/
def State.storeBytes (s : State) (a : Nat) : List Byte → Option State
  | []      => some s
  | b :: bs =>
    match s.memWrite a b with
    | some s' => s'.storeBytes (a + 1) bs
    | none    => none

/-! ### The call stack -/

/-- push(v): none where all 16 entries are in use (`10_state.md` R25). -/
def State.push (s : State) (v : Word) : Option State :=
  if s.stack.length < Config.stackDepth then some (s.setStack (s.stack ++ [v])) else none

/-- pop(): the last pushed value and the state without it; none where the stack is empty (`10_state.md` R25). -/
def State.pop (s : State) : Option (Word × State) :=
  match s.stack.getLast? with
  | some v => some (v, s.setStack s.stack.dropLast)
  | none   => none

/-! ### The framebuffer -/

/-- FB[y][x]. -/
def pixel (fb : Screen) (p : Pixel) : Bool := fb[p.2][p.1]

/-- toggle(x, y): the screen with the pixel inverted (`44_display.md` R172). -/
def toggle (fb : Screen) (p : Pixel) : Screen := fb.set p.2 (fb[p.2].set p.1 (!fb[p.2][p.1]))

/-- Toggle pixels one after the other. -/
def toggleAll (fb : Screen) : List Pixel → Screen
  | []      => fb
  | p :: ps => toggleAll (toggle fb p) ps

/-- Whether some toggle of `toggleAll` went from set to clear: toggle's answer, collected
(`44_display.md` R171, R172). -/
def collides (fb : Screen) : List Pixel → Bool
  | []      => false
  | p :: ps => pixel fb p || collides (toggle fb p) ps

/-! ### Keys -/

/-- KEYS[k] for a key number held in a register; none where it is above 15 (`45_timers_and_input.md` R186). -/
def State.keyFlag (s : State) (k : Byte) : Option Bool := if h : k.toNat < 16 then some s.keys[k.toNat] else none

/-! ### Fault entry -/

/-- raise F(a, w): record the fault; the tick stops here with no timer and no output phase; nothing else
changes (`60_exceptions.md` R208). -/
def State.raise (s : State) (c : Cause) (a w : Word) : State := { s with fault := some ⟨c, a, w⟩, tick := none }

/-- The address the instruction now executing was fetched from: pc already holds it plus 2, modulo 65536
(`40_instruction_cycle.md` R92). -/
def State.fetchAddr (s : State) : Word := s.pc - 2

/-- The numeric code of a run-time fault (`60_exceptions.md` R200, decision D23). -/
def causeCode : Cause → Nat
  | .illegalOpcode  => 1
  | .stackUnderflow => 2
  | .stackOverflow  => 3

/-- The code the output `fault` carries: 0 when no fault is latched (`40_instruction_cycle.md` R90,
decisions D1, D23). Its address and word are in the latch itself, `State.fault`. -/
def State.faultCode (s : State) : Nat :=
  match s.fault with
  | none   => 0
  | some f => causeCode f.cause

/-- The code of the reply to a load: LoadOverflow is 4 (R200, decision D23); `ok` and no reply are no fault,
code 0. DEDUCED, safe (log entry 14). -/
def State.replyCode (s : State) : Nat :=
  match s.reply with
  | some .loadOverflow => 4
  | some .ok           => 0
  | none               => 0

/-- Fault entry from inside the rule of instruction `i` (R202, R203). -/
def State.raiseIn (s : State) (c : Cause) (i : Instr) : State := s.raise c s.fetchAddr (encode i)

end Sys2Proof.Machine
end

