-- ==== Sys2Proof/Machine/Alu.lean ====
section
/-! DEFINITION. Register loads and the 8-bit ALU (`42_alu.md`). Steps run in the order the rule writes them, and
VF is written before the result (`00_scope.md` R9, `42_alu.md` R143). -/

namespace Sys2Proof.Machine

/-- 6XKK `LD Vx, kk` (R130). -/
def execLdImm (x : Reg) (kk : Byte) (s : State) : Host.Outcome State Fault Refusal := .next (s.setV x kk)

/-- 7XKK `ADD Vx, kk` (R131): modulo 256, no flag. -/
def execAddImm (x : Reg) (kk : Byte) (s : State) : Host.Outcome State Fault Refusal :=
  .next (s.setV x (s.getV x + kk))

/-- 8XY0 `LD Vx, Vy` (R132). -/
def execLdReg (x y : Reg) (s : State) : Host.Outcome State Fault Refusal := .next (s.setV x (s.getV y))

/-- 8XY1 `OR Vx, Vy` (R133): VF is not written. -/
def execOrReg (x y : Reg) (s : State) : Host.Outcome State Fault Refusal :=
  .next (s.setV x (s.getV x ||| s.getV y))

/-- 8XY2 `AND Vx, Vy` (R134): VF is not written. -/
def execAndReg (x y : Reg) (s : State) : Host.Outcome State Fault Refusal :=
  .next (s.setV x (s.getV x &&& s.getV y))

/-- 8XY3 `XOR Vx, Vy` (R135): VF is not written. -/
def execXorReg (x y : Reg) (s : State) : Host.Outcome State Fault Refusal :=
  .next (s.setV x (s.getV x ^^^ s.getV y))

/-- 8XY4 `ADD Vx, Vy` (R136): the sum is computed before VF is written. -/
def execAddReg (x y : Reg) (s : State) : Host.Outcome State Fault Refusal :=
  .next ((s.setV VF (carryFlag (s.getV x) (s.getV y))).setV x (s.getV x + s.getV y))

/-- The state after the first step of a subtraction: VF holds the strict no-borrow flag of minuend `a` and
subtrahend `b` (R137, R139). -/
def State.withBorrowFlag (s : State) (a b : Reg) : State := s.setV VF (noBorrowFlag (s.getV a) (s.getV b))

/-- 8XY5 `SUB Vx, Vy` (R137): V[X] and V[Y] are read after the VF write. -/
def execSubReg (x y : Reg) (s : State) : Host.Outcome State Fault Refusal :=
  .next ((s.withBorrowFlag x y).setV x ((s.withBorrowFlag x y).getV x - (s.withBorrowFlag x y).getV y))

/-- 8XY6 `SHR Vx` (R138): V[Y] is not used, V[X] is read after the VF write. -/
def execShr (x : Reg) (s : State) : Host.Outcome State Fault Refusal :=
  .next ((s.setV VF (shrFlag (s.getV x))).setV x ((s.setV VF (shrFlag (s.getV x))).getV x >>> 1))

/-- 8XY7 `SUBN Vx, Vy` (R139): V[X] and V[Y] are read after the VF write. -/
def execSubnReg (x y : Reg) (s : State) : Host.Outcome State Fault Refusal :=
  .next ((s.withBorrowFlag y x).setV x ((s.withBorrowFlag y x).getV y - (s.withBorrowFlag y x).getV x))

/-- 8XYE `SHL Vx` (R140): V[Y] is not used, V[X] is read after the VF write. -/
def execShl (x : Reg) (s : State) : Host.Outcome State Fault Refusal :=
  .next ((s.setV VF (shlFlag (s.getV x))).setV x ((s.setV VF (shlFlag (s.getV x))).getV x <<< 1))

/-- CXKK `RND Vx, kk` (R141): one free byte is drawn and masked. -/
def execRnd (x : Reg) (kk : Byte) (s : State) : Host.Outcome State Fault Refusal :=
  .next (s.useDraw.setV x (s.drawnByte &&& kk))

end Sys2Proof.Machine
end

