-- ==== Sys2Proof/Machine/Display.lean ====
section
/-! DEFINITION. The display (`44_display.md`): clear and draw, the only instructions that write FB. -/

namespace Sys2Proof.Machine

/-- 00E0 `CLS` (R170). -/
def execCls (s : State) : Host.Outcome State Fault Refusal := .next (s.setFb blankScreen)

/-- The effect of a draw once the sprite's bytes are read: every lit pixel is inverted, and VF, already
cleared, is set when one of them was set (R171). -/
def State.drawSprite (s : State) (x0 y0 : Byte) (bytes : List Byte) : State :=
  (s.setFb (toggleAll s.fb (spritePixels x0 y0 0 bytes))).setV VF
    (flagByte (collides s.fb (spritePixels x0 y0 0 bytes)))

/-- DXYN `DRW Vx, Vy, n` (R171): VF is cleared first, then the coordinates are read once, so a coordinate taken
from VF is 0 (R171 (g), decision D3). -/
def execDrw (x y : Reg) (n : Nibble) (s : State) : Host.Outcome State Fault Refusal :=
  match s.loadBytes (effAddr s.index 0) n.toNat with
  | some bytes => .next ((s.setV VF 0).drawSprite ((s.setV VF 0).getV x) ((s.setV VF 0).getV y) bytes)
  | none       => .fault .memOutOfRange

end Sys2Proof.Machine
end

