-- ==== Sys2Proof/Machine/Index.lean ====
section
/-! DEFINITION. The index register and memory transfer (`43_index_and_memory.md`). No access changes I (R150);
an address above 0xFFF is the undefined point MemOutOfRange (`20_memory.md` R51). -/

namespace Sys2Proof.Machine

/-- ANNN `LD I, nnn` (R151). -/
def execLdI (nnn : Addr) (s : State) : Host.Outcome State Fault Refusal := .next (s.setIndex (zextAddr nnn))

/-- FX1E `ADD I, Vx` (R152): modulo 65536, VF is not written. -/
def execAddI (x : Reg) (s : State) : Host.Outcome State Fault Refusal :=
  .next (s.setIndex (s.index + zextByte (s.getV x)))

/-- FX29 `LD F, Vx` (R153): five times V[X], with no mask. -/
def execLdF (x : Reg) (s : State) : Host.Outcome State Fault Refusal := .next (s.setIndex (glyphAddr (s.getV x)))

/-- The effect of storing bytes from I on, or the undefined point. -/
def State.storeAtIndex (s : State) (bytes : List Byte) : Host.Outcome State Fault Refusal :=
  match s.storeBytes (effAddr s.index 0) bytes with
  | some s' => .next s'
  | none    => .fault .memOutOfRange

/-- FX33 `LD B, Vx` (R154): hundreds, tens, ones. -/
def execLdB (x : Reg) (s : State) : Host.Outcome State Fault Refusal := s.storeAtIndex (decimalDigits (s.getV x))

/-- FX55 `LD [I], Vx` (R155): V[0] to V[X], inclusive. -/
def execStoreRegs (x : Reg) (s : State) : Host.Outcome State Fault Refusal := s.storeAtIndex (s.firstV (x.val + 1))

/-- FX65 `LD Vx, [I]` (R156): V[0] to V[X], inclusive. -/
def execLoadRegs (x : Reg) (s : State) : Host.Outcome State Fault Refusal :=
  match s.loadBytes (effAddr s.index 0) (x.val + 1) with
  | some bytes => .next (s.setFirstV bytes)
  | none       => .fault .memOutOfRange

end Sys2Proof.Machine
end

