-- ==== Sys2Proof/Machine/TimerKey.lean ====
section
/-! DEFINITION. Timer and keypad instructions (`45_timers_and_input.md`). -/

namespace Sys2Proof.Machine

/-- FX07 `LD Vx, DT` (R180). -/
def execLdVxDt (x : Reg) (s : State) : Host.Outcome State Fault Refusal := .next (s.setV x s.dt)

/-- FX0A `LD Vx, K` (R181): a key wait captures X and the CPU is paused; V[X] is written later, by the event. -/
def execLdVxK (x : Reg) (s : State) : Host.Outcome State Fault Refusal := .next (s.setKeyWait (some x))

/-- FX15 `LD DT, Vx` (R182). -/
def execLdDtVx (x : Reg) (s : State) : Host.Outcome State Fault Refusal := .next (s.setDt (s.getV x))

/-- FX18 `LD ST, Vx` (R183): TONE is not changed by the instruction. -/
def execLdStVx (x : Reg) (s : State) : Host.Outcome State Fault Refusal := .next (s.setSt (s.getV x))

/-- EX9E `SKP Vx` (R184): a key number above 15 is the undefined point of R186. -/
def execSkp (x : Reg) (s : State) : Host.Outcome State Fault Refusal :=
  match s.keyFlag (s.getV x) with
  | some down => .next (s.skipIf down)
  | none      => .fault .keyIndexOutOfRange

/-- EXA1 `SKNP Vx` (R185): a key number above 15 is the undefined point of R186. -/
def execSknp (x : Reg) (s : State) : Host.Outcome State Fault Refusal :=
  match s.keyFlag (s.getV x) with
  | some down => .next (s.skipIf (!down))
  | none      => .fault .keyIndexOutOfRange

end Sys2Proof.Machine
end

