-- ==== Sys2Proof/Machine/Events.lean ====
section
/-! DEFINITION. The five events the host raises between ticks (`40_instruction_cycle.md` R90, R95 to R99;
`70_reset_and_hazards.md` R220). -/

namespace Sys2Proof.Machine

/-- `reset` (R220): every element of R33 at its reset value; the key flags are unchanged (decision D14). The
parameter FONT, the host's coming events and the count of random draws are no state of the spec's and are kept. -/
def eventReset (s : State) : State :=
  { State.reset with keys := s.keys, inbox := s.inbox, font := s.font, draws := s.draws }

/-- `load_program(bytes)` (R97): a program that does not fit is rejected whole and changes nothing. -/
def eventLoad (bytes : List Byte) (s : State) : State :=
  if Config.memSize < bytes.length + Config.progBase then s.setReply (some .loadOverflow)
  else (s.setMem (Memory.writeAll s.font s.mem Config.progBase bytes)).setReply (some .ok)

/-- `tick(n)` (R91) begins: a halted machine does nothing, otherwise a batch of at most `n` instructions is
in progress. -/
def eventTick (n : Nat) (s : State) : State := if s.fault.isSome then s else s.setTick (some n)

/-- A pending key wait is fulfilled with the key's code and the CPU is no longer paused (R95). -/
def State.fulfilKeyWait (s : State) (code : Key) : State :=
  match s.keyWait with
  | some r => (s.setV r (keyByte code)).setKeyWait none
  | none   => s

/-- `key_down(code)` (R95): the flag is set, and a pending key wait is fulfilled whatever the flag held. -/
def eventKeyDown (code : Key) (s : State) : State := (s.setKeys (s.keys.set code true)).fulfilKeyWait code

/-- `key_up(code)` (R96): the flag is cleared, nothing else. -/
def eventKeyUp (code : Key) (s : State) : State := s.setKeys (s.keys.set code false)

/-- The effect of one host event. -/
def applyEvent (e : Event) (s : State) : State :=
  match e with
  | .reset             => eventReset s
  | .loadProgram bytes => eventLoad bytes s
  | .tick n            => eventTick n s
  | .keyDown code      => eventKeyDown code s
  | .keyUp code        => eventKeyUp code s

end Sys2Proof.Machine
end

