-- ==== Sys2Proof/Machine/Cycle.lean ====
section
/-! DEFINITION. The instruction cycle (`40_instruction_cycle.md` R92), the end of a tick (R93, R94), one step of
the whole machine, and `tick(n)` as R91 writes it. -/

namespace Sys2Proof.Machine

/-- The word at pc, big-endian; none where pc is above 0xFFE (R92, `20_memory.md` R51, R52). -/
def State.fetchWord (s : State) : Option Word :=
  if s.pc.toNat ≤ 0xFFE then some (joinBytes (s.peek s.pc.toNat) (s.peek (s.pc.toNat + 1))) else none

/-- The state an instruction's rule starts from: pc is advanced by 2 modulo 65536 (R92), and `k` instructions
are left in the batch (R91). -/
def State.advance (s : State) (k : Nat) : State := (s.setPc (s.pc + 2)).setTick (some k)

/-- step() of R92: fetch, advance, decode, execute; `k` instructions are left in the batch after this one. -/
def cpuStep (k : Nat) (s : State) : Host.Outcome State Fault Refusal :=
  match s.fetchWord with
  | none   => .fault .fetchOutOfRange
  | some w =>
    match decodeWord w with
    | .ok i    => exec i (s.advance k)
    | .error _ => .next ((s.advance k).raise .illegalOpcode s.pc w)

/-- The timer phase (R93): each timer counts once, unless the CPU is paused. -/
def timerPhase (s : State) : State :=
  if s.keyWait.isSome then s else (s.setDt (countDown s.dt)).setSt (countDown s.st)

/-- The output phase (R94): TONE is set from the sound timer and PRESENT pulses; the tick is over. -/
def outputPhase (s : State) : State := ((s.setTone (decide (0 < s.st.toNat))).setPresent true).setTick none

/-- The end of a tick: the timer phase, then the output phase (R91). -/
def endTick (s : State) : State := outputPhase (timerPhase s)

/-- One step inside a tick with `k` instructions left in its batch: no further instruction when the batch is
used up or the CPU is paused (R91). -/
def tickStep (k : Nat) (s : State) : Host.Outcome State Fault Refusal :=
  match k with
  | 0     => .next (endTick s)
  | k + 1 => if s.keyWait.isSome then .next (endTick s) else cpuStep k s

/-- One step between ticks: the host's next event is taken, or the machine waits (R90, R99). -/
def hostStep (s : State) : State :=
  match s.inbox with
  | []        => s
  | e :: rest => applyEvent e (s.setInbox rest)

/-- One step of the whole machine. The pulse outputs of the step before go back to rest. A halted machine runs
nothing: a tick it is in ends at once (R91). -/
def machineStep (s : State) : Host.Outcome State Fault Refusal :=
  match s.tick with
  | none   => .next (hostStep s.quiet)
  | some k => if s.fault.isSome then .next (s.quiet.setTick none) else tickStep k s.quiet

/-! ### `tick(n)` in one piece, as R91 writes it -/

/-- The batch phase of R91: at most `n` instructions, none once the CPU is paused or halted. -/
def batch : Nat → State → Host.Outcome State Fault Refusal
  | 0, s     => .next s
  | n + 1, s =>
    if s.keyWait.isSome then .next s
    else
      match cpuStep n s.quiet with
      | .next s'   => if s'.fault.isSome then .next s' else batch n s'
      | .fault f   => .fault f
      | .refused r => .refused r

/-- `tick(n)` of R91: nothing when halted; the batch; a fault ends the tick at once; then the timer phase and
the output phase. -/
def tickWhole (n : Nat) (s : State) : Host.Outcome State Fault Refusal :=
  if s.fault.isSome then .next s
  else
    match batch n (s.setTick (some n)) with
    | .next s'   => if s'.fault.isSome then .next s' else .next (endTick s'.quiet)
    | .fault f   => .fault f
    | .refused r => .refused r

/-- The state with a word in memory at pc, and a tick in progress that is neither halted nor paused and has an
instruction left: what a fetch of that word by the very next step takes (log entry 7). -/
def State.placeWord (s : State) (w : Word) : State :=
  { s with
    mem := if s.pc.toNat ≤ 0xFFE then Memory.writeAll s.font s.mem s.pc.toNat [highByte w, lowByte w] else s.mem
    tick := match s.tick with
      | some (k + 1) => some (k + 1)
      | _            => some 1
    keyWait := none
    fault := none }

end Sys2Proof.Machine
end

