-- ==== Sys2Proof/Safety.lean ====
section
/-! DEFINITION. What statements are made of: the invariants of the machine, and what a step leaves unchanged. -/

namespace Sys2Proof.Machine

/-! ### Invariants -/

/-- Memory is in its canonical form; the stack holds at most 16 entries (`40_instruction_cycle.md` R101 (b));
a pending key wait and a latched fault never hold together (R101 (a)); a halted machine is in no tick
(`60_exceptions.md` R208). -/
abbrev State.Inv (s : State) : Prop :=
  Memory.wf s.font s.mem ∧ s.stack.length ≤ 16 ∧ (s.keyWait = none ∨ s.fault = none) ∧
    (s.fault = none ∨ s.tick = none)

/-- pc and the return addresses stay in the ranges that legal fetches give: pc is at most 0x10FE
(`10_state.md` R23) and every entry lies in 0x0002 to 0x1000 (`41_control_transfer.md` R113). -/
abbrev State.PcBound (s : State) : Prop :=
  s.pc.toNat ≤ 0x10FE ∧ ∀ a ∈ s.stack, 2 ≤ a.toNat ∧ a.toNat ≤ 0x1000

/-- The CPU can run an instruction: a tick is in progress with an instruction left in its batch, and the
machine is neither paused nor halted (`40_instruction_cycle.md` R91). -/
abbrev State.Running (s : State) (k : Nat) : Prop := s.tick = some (k + 1) ∧ s.keyWait = none ∧ s.fault = none

/-! ### Frames -/

/-- The parts of the state other than the general registers and memory. -/
inductive Part where
  | index | pc | stack | dt | st | fb | keys | keyWait | fault | tone | present | reply | tick | inbox | font | draws
  deriving DecidableEq, Repr

/-- The part is the same in both states. -/
def Part.kept (p : Part) (s t : State) : Prop :=
  match p with
  | .index   => t.index = s.index
  | .pc      => t.pc = s.pc
  | .stack   => t.stack = s.stack
  | .dt      => t.dt = s.dt
  | .st      => t.st = s.st
  | .fb      => t.fb = s.fb
  | .keys    => t.keys = s.keys
  | .keyWait => t.keyWait = s.keyWait
  | .fault   => t.fault = s.fault
  | .tone    => t.tone = s.tone
  | .present => t.present = s.present
  | .reply   => t.reply = s.reply
  | .tick    => t.tick = s.tick
  | .inbox   => t.inbox = s.inbox
  | .font    => t.font = s.font
  | .draws   => t.draws = s.draws

/-- From `s` to `t` nothing changes but the registers `regs`, the parts `parts` and the memory bytes at
`addrs`: every other register, every other part and every other byte of memory reads as before
(`00_scope.md` R10, decision D21). -/
structure Frame (regs : List Reg) (parts : List Part) (addrs : List Nat) (s t : State) : Prop where
  regs  : ∀ r, r ∉ regs → t.getV r = s.getV r
  parts : ∀ p, p ∉ parts → p.kept s t
  mem   : ∀ a, a ∉ addrs → t.peek a = s.peek a

/-- The addresses I, I + 1, ..., I + n - 1 that an access of n bytes through I reaches
(`43_index_and_memory.md` R150). -/
def effAddrs (index : Word) (n : Nat) : List Nat := (List.range n).map (effAddr index)

/-- The registers V[0] to V[x]. -/
def firstRegs (x : Reg) : List Reg := (List.finRange 16).filter (fun r => r ≤ x)

/-! ### Drawing -/

/-- A 1 bit of the sprite of `n` rows at I, drawn from column `x0` and row `y0`, lands on the pixel
(`44_display.md` R171). -/
def State.spriteCovers (s : State) (x0 y0 : Byte) (n : Nat) (p : Pixel) : Prop :=
  ∃ row col, row < n ∧ col < 8 ∧ (s.peek (effAddr s.index row)).getLsbD (7 - col) = true ∧
    p = pixelAt x0 y0 col row

/-- V[r] as DXYN reads a coordinate: VF has been cleared first (`44_display.md` R171 (g)). -/
def State.coordinate (s : State) (r : Reg) : Byte := if r = VF then 0 else s.getV r

/-! ### Outcomes -/

/-- The next state with `f` applied; a fault or a refusal as it is. -/
def mapNext (f : State → State) : Host.Outcome State Fault Refusal → Host.Outcome State Fault Refusal
  | .next s    => .next (f s)
  | .fault r   => .fault r
  | .refused r => .refused r

/-- The next state, if there is one. -/
def nextState : Host.Outcome State Fault Refusal → Option State
  | .next s    => some s
  | .fault _   => none
  | .refused _ => none

/-- The fault a step stops with, if it does. -/
def faultOf : Host.Outcome State Fault Refusal → Option Fault
  | .next _    => none
  | .fault r   => some r
  | .refused _ => none

end Sys2Proof.Machine
end

