-- ==== Sys2Proof/Certificates/Slice0/Obligations.lean ====
section
/-! DEFINITION. The statements for the provers. Each one's docstring names the rules of spec/ it rests on. -/

open Sys2Proof Sys2Proof.Machine

/-! ### Encoding -/

/-- Every instruction, with every operand at every value, decodes from its own word: no bit of an encoding is
dropped (`30_encoding.md` R71 to R74). -/
def Obligations.DecodeOfEncode : Prop :=
  ∀ i : Instr, decodeWord (encode i) = .ok i

/-- A word that decodes is the word of the instruction it decodes to, so each legal word has one meaning, the
unused field Y of 8XY6 and 8XYE included (`30_encoding.md` R74). -/
def Obligations.EncodeOfDecode : Prop :=
  ∀ (w : Word) (i : Instr), decodeWord w = .ok i → encode i = w

/-- The decoder accepts exactly the words of the opcode map, each in the row of the instruction it gives; every
other word is illegal; and no word lies in two rows (`30_encoding.md` R74, R75, R76, decision D9). -/
def Obligations.OpcodeMapExact : Prop :=
  ∀ w : Word,
    (wordWellFormed w = true → ∃ i, decodeWord w = .ok i ∧ i.row.holds w = true) ∧
    (wordWellFormed w = false → decodeWord w = .error (.illegal w)) ∧
    ∀ r ∈ opcodeRows, ∀ r' ∈ opcodeRows, r.holds w = true → r'.holds w = true → r = r'

/-- Words of the spec's examples and vectors, one of each format and the nearest illegal words, decode as the
spec says (`30_encoding.md` R74, R76, decision D9; `95_test_vectors.md` 2.6). -/
def Obligations.SpecWordsDecode : Prop :=
  (decodeWord 0x00E0 = .ok .cls ∧ decodeWord 0x00EE = .ok .ret ∧ decodeWord 0x1ABC = .ok (.jp 0xABC) ∧
    decodeWord 0x220A = .ok (.call 0x20A) ∧ decodeWord 0x3142 = .ok (.seImm 1 0x42) ∧
    decodeWord 0x5120 = .ok (.seReg 1 2) ∧ decodeWord 0x8125 = .ok (.subReg 1 2) ∧
    decodeWord 0x81A6 = .ok (.shr 1 10) ∧ decodeWord 0xA300 = .ok (.ldI 0x300) ∧
    decodeWord 0xC30F = .ok (.rnd 3 0x0F) ∧ decodeWord 0xD7A3 = .ok (.drw 7 10 3) ∧
    decodeWord 0xE29E = .ok (.skp 2) ∧ decodeWord 0xF10A = .ok (.ldVxK 1) ∧
    decodeWord 0xF155 = .ok (.storeRegs 1)) ∧
  (decodeWord 0x0000 = .error (.illegal 0x0000) ∧ decodeWord 0x5121 = .error (.illegal 0x5121) ∧
    decodeWord 0x8128 = .error (.illegal 0x8128) ∧ decodeWord 0x9ABF = .error (.illegal 0x9ABF) ∧
    decodeWord 0xE19F = .error (.illegal 0xE19F) ∧ decodeWord 0xFFFF = .error (.illegal 0xFFFF))

/-! ### The step -/

/-- While the CPU runs, the two bytes at pc, big-endian, are the instruction, and the step is that instruction's
meaning on the state with pc advanced by 2 modulo 65536, one instruction fewer left in the batch and the pulse
outputs at rest (`40_instruction_cycle.md` R91, R92; the batch count and the pulses are log entries 2 and 3). -/
def Obligations.StepRunsDecoded : Prop :=
  ∀ (s : State) (k : Nat) (i : Instr),
    s.Running k → s.pc.toNat ≤ 0xFFE →
    decodeWord (joinBytes (s.peek s.pc.toNat) (s.peek (s.pc.toNat + 1))) = .ok i →
    step s = exec i ((s.quiet.setPc (s.pc + 2)).setTick (some k))

/-- While the CPU runs, a word of no row of the opcode map raises IllegalOpcode: the latch records the fetch
address and the word, pc is the fetch address plus 2, the tick ends with no timer and no output phase, and
nothing else changes (`60_exceptions.md` R201, R208, decisions D9, D10). -/
def Obligations.StepIllegalOpcode : Prop :=
  ∀ (s : State) (k : Nat) (w : Word),
    s.Running k → s.pc.toNat ≤ 0xFFE → w = joinBytes (s.peek s.pc.toNat) (s.peek (s.pc.toNat + 1)) →
    wordWellFormed w = false →
    ∃ t, step s = .next t ∧ t.fault = some ⟨.illegalOpcode, s.pc, w⟩ ∧ t.pc = s.pc + 2 ∧ t.tick = none ∧
      t.present = false ∧ Frame [] [.pc, .fault, .tick, .present, .reply] [] s t

/-- While the CPU runs, a fetch with pc above 0xFFE is the undefined point FetchOutOfRange, a model-level fault
(`40_instruction_cycle.md` R92, `00_scope.md` R8, decision D8). -/
def Obligations.StepFetchOutOfRange : Prop :=
  ∀ (s : State) (k : Nat), s.Running k → 0xFFE < s.pc.toNat → step s = .fault .fetchOutOfRange

/-- The instruction placed at pc is what the very next step runs, whatever the state was before
(`20_memory.md` R59, log entry 7). -/
def Obligations.PlacedWordRuns : Prop :=
  ∀ (s : State) (w : Nat) (i : Instr), s.pc.toNat ≤ 0xFFE → decodeTableWord 16 w = some i →
    ∃ k, step (s.withFetchWord 16 w) =
      exec i (((s.withFetchWord 16 w).quiet.setPc (s.pc + 2)).setTick (some k))

/-- When the host raises `tick(n)` between ticks, at most n + 2 steps of the machine do exactly what R91's
`tick(n)` does in one piece: nothing when halted, the batch cut by a pause or a fault, the timer phase and the
output phase (`40_instruction_cycle.md` R91; taking the event and the batch count are log entries 1 and 2). -/
def Obligations.TickIsItsSteps : Prop :=
  ∀ (s : State) (n : Nat) (rest : List Event), s.tick = none → s.inbox = .tick n :: rest →
    ∃ j, 1 ≤ j ∧ j ≤ n + 2 ∧ Sys2Proof.core.run j s = tickWhole n (s.quiet.setInbox rest)

/-- The end of a tick, reached when the batch is used up or the CPU is paused: each timer above 0 counts down by
one unless the CPU is paused, a timer at 0 stays 0, TONE becomes 1 exactly when the sound timer is then above 0,
PRESENT pulses, and nothing else changes (`40_instruction_cycle.md` R91, R93, R94, decision D22). -/
def Obligations.EndOfTick : Prop :=
  ∀ (s : State) (k : Nat), s.tick = some k → s.fault = none → (k = 0 ∨ s.keyWait ≠ none) →
    ∃ t, step s = .next t ∧
      t.dt.toNat = (if s.keyWait = none then s.dt.toNat - 1 else s.dt.toNat) ∧
      t.st.toNat = (if s.keyWait = none then s.st.toNat - 1 else s.st.toNat) ∧
      (t.tone = true ↔ 0 < t.st.toNat) ∧ t.present = true ∧ t.tick = none ∧
      Frame [] [.dt, .st, .tone, .present, .reply, .tick] [] s t

/-- PRESENT pulses at the end of every tick that was not halted and did not fault, and at no other step: not at
an instruction, not in a fault, not at a host event (`40_instruction_cycle.md` R94, decisions D10, D22,
log entry 3). -/
def Obligations.PresentOnlyAtEndOfTick : Prop :=
  ∀ s t : State, step s = .next t →
    (t.present = true ↔ ∃ k, s.tick = some k ∧ s.fault = none ∧ (k = 0 ∨ s.keyWait ≠ none))

/-- From a halted state of the machine every step succeeds, runs no instruction and keeps the latched fault,
until the step that takes a `reset` event, which clears it (`60_exceptions.md` R209, decision D10). -/
def Obligations.HaltedUntilReset : Prop :=
  ∀ (s : State) (f : FaultRecord), s.Inv → s.fault = some f →
    ∃ t, step s = .next t ∧
      (((∃ rest, s.inbox = .reset :: rest) ∧ t.fault = none) ∨
        (t.fault = some f ∧ t.v = s.v ∧ t.pc = s.pc ∧ t.index = s.index ∧ t.stack = s.stack ∧ t.dt = s.dt ∧
          t.st = s.st ∧ t.fb = s.fb ∧ t.tone = s.tone ∧ t.keyWait = s.keyWait ∧ t.draws = s.draws))

/-- While a key wait is pending no instruction runs and no timer counts, until a `key_down` or `reset` event is
taken: every other step keeps the request, the registers, pc, the stack, the timers and the screen
(`45_timers_and_input.md` R181, `70_reset_and_hazards.md` R226). -/
def Obligations.PausedUntilKeyDown : Prop :=
  ∀ (s : State) (r : Reg), s.keyWait = some r → s.fault = none →
    (∀ e rest, s.tick = none → s.inbox = e :: rest → e ≠ .reset ∧ ∀ c, e ≠ .keyDown c) →
    ∃ t, step s = .next t ∧ t.keyWait = some r ∧ t.v = s.v ∧ t.pc = s.pc ∧ t.index = s.index ∧
      t.stack = s.stack ∧ t.dt = s.dt ∧ t.st = s.st ∧ t.fb = s.fb ∧ t.draws = s.draws

/-- Between ticks and with no host event to come the machine waits (the model's choice, log entry 1). -/
def Obligations.WaitsForHost : Prop :=
  ∀ s : State, s.tick = none → s.inbox = [] →
    ∃ t, step s = .next t ∧ t.present = false ∧ t.reply = none ∧ Frame [] [.present, .reply] [] s t

/-- Run-time faults are precise: when an instruction cycle ends with a fault latched, the latch records the fetch
address and the fetched word, pc is the fetch address plus 2, the tick is over with no timer and no output phase,
and nothing else changed (`60_exceptions.md` R208, decision D10). -/
def Obligations.FaultsArePrecise : Prop :=
  ∀ (s t : State) (k : Nat) (w : Word) (f : FaultRecord),
    s.Running k → s.fetchWord = some w → step s = .next t → t.fault = some f →
    f.addr = s.pc ∧ f.word = w ∧ t.pc = s.pc + 2 ∧ t.tick = none ∧ t.present = false ∧
      Frame [] [.pc, .fault, .tick, .present, .reply] [] s t

/-! ### Host events -/

/-- The `reset` event leaves every element at its reset value: registers, I, timers and stack zero or empty, pc
0x200, memory the font and zeros, the screen clear, no key wait, no fault, TONE 0 and no PRESENT; the key flags
are unchanged (`70_reset_and_hazards.md` R220, decisions D10, D14, D22). The model keeps the parameter FONT, the
host's coming events and the count of draws (log entries 1, 4, 5). -/
def Obligations.ResetEvent : Prop :=
  ∀ (s : State) (rest : List Event), s.tick = none → s.inbox = .reset :: rest →
    ∃ t, step s = .next t ∧ (∀ r, t.getV r = 0) ∧ t.index = 0 ∧ t.pc = 0x200 ∧
      (∀ a, t.peek a = if h : a < 80 then s.font[a] else 0) ∧ t.stack = [] ∧ t.dt = 0 ∧ t.st = 0 ∧
      (∀ p, pixel t.fb p = false) ∧ t.keyWait = none ∧ t.fault = none ∧ t.tone = false ∧ t.present = false ∧
      t.keys = s.keys ∧ t.tick = none ∧ t.inbox = rest ∧ t.font = s.font ∧ t.draws = s.draws

/-- The machine after power-on and reset: the values of `10_state.md` R33, with the key flags clear (R34), and
the invariants hold (R101). All of it as the spec decides in D10, D15, D22; the font table is the spec's default
(log entry 4). -/
def Obligations.ResetState : Prop :=
  (∀ r, State.reset.getV r = 0) ∧ State.reset.index = 0 ∧ State.reset.pc = 0x200 ∧
    (∀ a, State.reset.peek a = if h : a < 80 then State.reset.font[a] else 0) ∧ State.reset.stack = [] ∧
    State.reset.dt = 0 ∧ State.reset.st = 0 ∧ (∀ p, pixel State.reset.fb p = false) ∧
    (∀ k : Key, State.reset.keys[k] = false) ∧ State.reset.keyWait = none ∧ State.reset.fault = none ∧
    State.reset.tone = false ∧ State.reset.Inv ∧ State.reset.PcBound

/-- `load_program` of at most 3584 bytes: the bytes stand from 0x200 on, the reply is ok, and nothing else
changes (`40_instruction_cycle.md` R97, `20_memory.md` R63, decision D25). -/
def Obligations.LoadProgramFits : Prop :=
  ∀ (s : State) (bytes : List Byte) (rest : List Event),
    s.tick = none → s.inbox = .loadProgram bytes :: rest → bytes.length ≤ 3584 →
    ∃ t, step s = .next t ∧ t.reply = some .ok ∧ t.inbox = rest ∧
      (∀ (k : Nat) (h : k < bytes.length), t.peek (0x200 + k) = bytes[k]) ∧
      Frame [] [.present, .reply, .inbox] ((List.range bytes.length).map (fun k => 0x200 + k)) s t

/-- `load_program` of more than 3584 bytes: the reply is LoadOverflow and no state changes; no fault is latched
(`40_instruction_cycle.md` R97, `60_exceptions.md` R204). -/
def Obligations.LoadProgramOverflow : Prop :=
  ∀ (s : State) (bytes : List Byte) (rest : List Event),
    s.tick = none → s.inbox = .loadProgram bytes :: rest → 3584 < bytes.length →
    ∃ t, step s = .next t ∧ t.reply = some .loadOverflow ∧ t.inbox = rest ∧
      Frame [] [.present, .reply, .inbox] [] s t

/-- `key_down(code)`: the flag is set, the others keep their values, a pending key wait gets the code in its
register whatever the flag held, no wait is pending afterwards, and nothing else changes; no instruction runs
(`40_instruction_cycle.md` R95, decision D17). -/
def Obligations.KeyDown : Prop :=
  ∀ (s : State) (code : Key) (rest : List Event), s.tick = none → s.inbox = .keyDown code :: rest →
    ∃ t, step s = .next t ∧ t.keys[code] = true ∧ (∀ k : Key, k ≠ code → t.keys[k] = s.keys[k]) ∧
      (∀ r, s.keyWait = some r → (t.getV r).toNat = code.val) ∧ t.keyWait = none ∧ t.inbox = rest ∧
      Frame s.keyWait.toList [.keys, .keyWait, .present, .reply, .inbox] [] s t

/-- `key_up(code)`: the flag is cleared and nothing else changes; a pending key wait stays pending
(`40_instruction_cycle.md` R96). -/
def Obligations.KeyUp : Prop :=
  ∀ (s : State) (code : Key) (rest : List Event), s.tick = none → s.inbox = .keyUp code :: rest →
    ∃ t, step s = .next t ∧ t.keys[code] = false ∧ (∀ k : Key, k ≠ code → t.keys[k] = s.keys[k]) ∧
      t.inbox = rest ∧ Frame [] [.keys, .present, .reply, .inbox] [] s t

/-- Taking `tick(n)`: a machine that is not halted begins a batch of n instructions; a halted one does nothing
(`40_instruction_cycle.md` R91, decision D10, log entry 2). -/
def Obligations.TickBegins : Prop :=
  ∀ (s : State) (n : Nat) (rest : List Event), s.tick = none → s.inbox = .tick n :: rest →
    ∃ t, step s = .next t ∧ t.tick = (if s.fault = none then some n else none) ∧ t.inbox = rest ∧
      Frame [] [.tick, .present, .reply, .inbox] [] s t

/-! ### Control transfer -/

/-- 00EE with a return address on the stack: pc is the last pushed entry, which is taken off
(`41_control_transfer.md` R113, `10_state.md` R25). -/
def Obligations.RetPops : Prop :=
  ∀ (s : State) (l : List Word) (v : Word), s.stack = l ++ [v] →
    ∃ t, exec .ret s = .next t ∧ t.pc = v ∧ t.stack = l ∧ Frame [] [.pc, .stack] [] s t

/-- 1NNN: pc is NNN (`41_control_transfer.md` R111). -/
def Obligations.JpSetsPc : Prop :=
  ∀ (s : State) (nnn : Addr),
    decodeWord (encodeNNN 0x1 nnn) = .ok (.jp nnn) ∧
    ∃ t, exec (.jp nnn) s = .next t ∧ t.pc.toNat = nnn.toNat ∧ Frame [] [.pc] [] s t

/-- 2NNN with a free stack entry: the already advanced pc is pushed, and pc is NNN
(`41_control_transfer.md` R112, decision D6). -/
def Obligations.CallPushes : Prop :=
  ∀ (s : State) (nnn : Addr), s.stack.length < 16 →
    ∃ t, exec (.call nnn) s = .next t ∧ t.stack = s.stack ++ [s.pc] ∧ t.pc.toNat = nnn.toNat ∧
      Frame [] [.pc, .stack] [] s t

/-- 00EE on an empty stack raises StackUnderflow and 2NNN on a full one StackOverflow: the fault records the fetch
address (pc, already advanced, minus 2) and the word, the tick ends, and pc, the stack and everything else stay
(`60_exceptions.md` R202, R203, R208, decisions D6, D10). -/
def Obligations.StackFaults : Prop :=
  ∀ (s : State) (nnn : Addr),
    (s.stack = [] →
      ∃ t, exec .ret s = .next t ∧ t.fault = some ⟨.stackUnderflow, s.pc - 2, 0x00EE⟩ ∧ t.tick = none ∧
        Frame [] [.fault, .tick] [] s t) ∧
    (16 ≤ s.stack.length →
      ∃ t, exec (.call nnn) s = .next t ∧ t.fault = some ⟨.stackOverflow, s.pc - 2, encodeNNN 0x2 nnn⟩ ∧
        t.tick = none ∧ Frame [] [.fault, .tick] [] s t)

/-- 3XKK skips when V[X] = KK and 4XKK when it differs: the skip adds 2 to the already advanced pc
(`41_control_transfer.md` R114, R115). -/
def Obligations.SkipsOnImmediate : Prop :=
  ∀ (s : State) (x : Reg) (kk : Byte),
    (decodeWord (encodeXKK 0x3 x kk) = .ok (.seImm x kk) ∧
      ∃ t, exec (.seImm x kk) s = .next t ∧ t.pc = (if s.getV x = kk then s.pc + 2 else s.pc) ∧
        Frame [] [.pc] [] s t) ∧
    (decodeWord (encodeXKK 0x4 x kk) = .ok (.sneImm x kk) ∧
      ∃ t, exec (.sneImm x kk) s = .next t ∧ t.pc = (if s.getV x = kk then s.pc else s.pc + 2) ∧
        Frame [] [.pc] [] s t)

/-- 5XY0 skips when V[X] = V[Y] and 9XY0 when they differ; X = Y included
(`41_control_transfer.md` R116, R117). A low nibble other than 0 is illegal, which is the spec's own decision D9
(`30_encoding.md` R76). -/
def Obligations.SkipsOnRegisters : Prop :=
  ∀ (s : State) (x y : Reg),
    (decodeWord (encodeXYN 0x5 x y 0x0) = .ok (.seReg x y) ∧
      ∃ t, exec (.seReg x y) s = .next t ∧ t.pc = (if s.getV x = s.getV y then s.pc + 2 else s.pc) ∧
        Frame [] [.pc] [] s t) ∧
    (decodeWord (encodeXYN 0x9 x y 0x0) = .ok (.sneReg x y) ∧
      ∃ t, exec (.sneReg x y) s = .next t ∧ t.pc = (if s.getV x = s.getV y then s.pc else s.pc + 2) ∧
        Frame [] [.pc] [] s t) ∧
    (∀ n : Nibble, n ≠ 0 →
      decodeWord (encodeXYN 0x5 x y n) = .error (.illegal (encodeXYN 0x5 x y n)) ∧
      decodeWord (encodeXYN 0x9 x y n) = .error (.illegal (encodeXYN 0x9 x y n)))

/-- BNNN: pc is NNN plus V[0], not reduced modulo 4096 (`41_control_transfer.md` R118). -/
def Obligations.JpV0AddsV0 : Prop :=
  ∀ (s : State) (nnn : Addr),
    decodeWord (encodeNNN 0xB nnn) = .ok (.jpV0 nnn) ∧
    ∃ t, exec (.jpV0 nnn) s = .next t ∧ t.pc.toNat = nnn.toNat + (s.getV 0).toNat ∧ Frame [] [.pc] [] s t

/-! ### Loads and ALU -/

/-- 6XKK: V[X] is KK; VF changes only if X = 0xF (`42_alu.md` R130). -/
def Obligations.LdImmLoads : Prop :=
  ∀ (s : State) (x : Reg) (kk : Byte),
    decodeWord (encodeXKK 0x6 x kk) = .ok (.ldImm x kk) ∧
    ∃ t, exec (.ldImm x kk) s = .next t ∧ t.getV x = kk ∧ Frame [x] [] [] s t

/-- 7XKK: V[X] is the sum modulo 256, and no flag is written (`42_alu.md` R131). -/
def Obligations.AddImmAdds : Prop :=
  ∀ (s : State) (x : Reg) (kk : Byte),
    decodeWord (encodeXKK 0x7 x kk) = .ok (.addImm x kk) ∧
    ∃ t, exec (.addImm x kk) s = .next t ∧ (t.getV x).toNat = ((s.getV x).toNat + kk.toNat) % 256 ∧
      Frame [x] [] [] s t

/-- 8XY0: V[X] is V[Y] (`42_alu.md` R132). -/
def Obligations.LdRegCopies : Prop :=
  ∀ (s : State) (x y : Reg),
    decodeWord (encodeXYN 0x8 x y 0x0) = .ok (.ldReg x y) ∧
    ∃ t, exec (.ldReg x y) s = .next t ∧ t.getV x = s.getV y ∧ Frame [x] [] [] s t

/-- 8XY1, 8XY2, 8XY3: bitwise OR, AND, XOR of V[X] and V[Y] into V[X], bit by bit; VF is left as it was
(`42_alu.md` R133, R134, R135, decision D21). -/
def Obligations.LogicOperations : Prop :=
  ∀ (s : State) (x y : Reg),
    (decodeWord (encodeXYN 0x8 x y 0x1) = .ok (.orReg x y) ∧
      ∃ t, exec (.orReg x y) s = .next t ∧
        (∀ b, (t.getV x).getLsbD b = ((s.getV x).getLsbD b || (s.getV y).getLsbD b)) ∧ Frame [x] [] [] s t) ∧
    (decodeWord (encodeXYN 0x8 x y 0x2) = .ok (.andReg x y) ∧
      ∃ t, exec (.andReg x y) s = .next t ∧
        (∀ b, (t.getV x).getLsbD b = ((s.getV x).getLsbD b && (s.getV y).getLsbD b)) ∧ Frame [x] [] [] s t) ∧
    (decodeWord (encodeXYN 0x8 x y 0x3) = .ok (.xorReg x y) ∧
      ∃ t, exec (.xorReg x y) s = .next t ∧
        (∀ b, (t.getV x).getLsbD b = ((s.getV x).getLsbD b ^^ (s.getV y).getLsbD b)) ∧ Frame [x] [] [] s t)

/-- 8XY4: V[X] is the sum modulo 256; VF is the carry, unless X = 0xF, where the sum overwrites it
(`42_alu.md` R136, R143, decision D2 for VF as an operand). -/
def Obligations.AddRegAdds : Prop :=
  ∀ (s : State) (x y : Reg),
    ∃ t, exec (.addReg x y) s = .next t ∧
      (t.getV x).toNat = ((s.getV x).toNat + (s.getV y).toNat) % 256 ∧
      (x ≠ VF → t.getV VF = if 255 < (s.getV x).toNat + (s.getV y).toNat then 1 else 0) ∧
      Frame [x, VF] [] [] s t

/-- 8XY5 and 8XY7: VF is first the strict comparison minuend > subtrahend, then V[X] is the difference modulo 256
of the operands read after that write, so an operand that is VF reads as the flag
(`42_alu.md` R137, R139, R143, decision D2 for VF as an operand). -/
def Obligations.Subtractions : Prop :=
  ∀ (s : State) (x y : Reg),
    (∃ (t : State) (f : Byte), exec (.subReg x y) s = .next t ∧
      f = (if (s.getV y).toNat < (s.getV x).toNat then 1 else 0) ∧
      (t.getV x).toNat = ((if x = VF then f else s.getV x).toNat + 256 - (if y = VF then f else s.getV y).toNat) % 256 ∧
      (x ≠ VF → t.getV VF = f) ∧ Frame [x, VF] [] [] s t) ∧
    (∃ (t : State) (f : Byte), exec (.subnReg x y) s = .next t ∧
      f = (if (s.getV x).toNat < (s.getV y).toNat then 1 else 0) ∧
      (t.getV x).toNat = ((if y = VF then f else s.getV y).toNat + 256 - (if x = VF then f else s.getV x).toNat) % 256 ∧
      (x ≠ VF → t.getV VF = f) ∧ Frame [x, VF] [] [] s t)

/-- 8XY6 and 8XYE shift V[X] by one, logically, whatever Y is; VF is the bit shifted out; with X = 0xF the flag is
what is shifted, so VF ends 0 after 8XY6 and 0 or 2 after 8XYE
(`42_alu.md` R138, R140, R143, decision D2 for VF as an operand). -/
def Obligations.Shifts : Prop :=
  ∀ (s : State) (x y : Reg),
    (∃ t, exec (.shr x y) s = .next t ∧
      (x ≠ VF → (t.getV x).toNat = (s.getV x).toNat / 2 ∧ (t.getV VF).toNat = (s.getV x).toNat % 2) ∧
      (x = VF → t.getV VF = 0) ∧ Frame [x, VF] [] [] s t) ∧
    (∃ t, exec (.shl x y) s = .next t ∧
      (x ≠ VF → (t.getV x).toNat = (s.getV x).toNat * 2 % 256 ∧ (t.getV VF).toNat = (s.getV x).toNat / 128) ∧
      (x = VF → (t.getV VF).toNat = 2 * ((s.getV VF).toNat / 128)) ∧ Frame [x, VF] [] [] s t)

/-- CXKK: V[X] is the free byte of this draw AND KK, and one draw is consumed. The statement holds for every free
byte (`42_alu.md` R141, decision D18, log entry 5). -/
def Obligations.RndMasksDraw : Prop :=
  ∀ (s : State) (x : Reg) (kk : Byte),
    ∃ t, exec (.rnd x kk) s = .next t ∧ t.getV x = Config.rnd s.draws &&& kk ∧ t.draws = s.draws + 1 ∧
      Frame [x] [.draws] [] s t

/-! ### Index and memory -/

/-- ANNN: I is NNN (`43_index_and_memory.md` R151). -/
def Obligations.LdILoads : Prop :=
  ∀ (s : State) (nnn : Addr),
    decodeWord (encodeNNN 0xA nnn) = .ok (.ldI nnn) ∧
    ∃ t, exec (.ldI nnn) s = .next t ∧ t.index.toNat = nnn.toNat ∧ Frame [] [.index] [] s t

/-- FX1E: I is the sum modulo 65536, VF is not written; FX29: I is five times V[X], with no mask
(`43_index_and_memory.md` R152, R153, decisions D12, D13). -/
def Obligations.IndexArithmetic : Prop :=
  ∀ (s : State) (x : Reg),
    (∃ t, exec (.addI x) s = .next t ∧ t.index.toNat = (s.index.toNat + (s.getV x).toNat) % 65536 ∧
      Frame [] [.index] [] s t) ∧
    (∃ t, exec (.ldF x) s = .next t ∧ t.index.toNat = (s.getV x).toNat * 5 ∧ Frame [] [.index] [] s t)

/-- FX33 with I at most 0xFFD: the three decimal digits of V[X] stand at I, I + 1, I + 2, hundreds first, and
nothing else changes (`43_index_and_memory.md` R154, R150). -/
def Obligations.LdBStoresDigits : Prop :=
  ∀ (s : State) (x : Reg), s.index.toNat ≤ 0xFFD →
    ∃ t, exec (.ldB x) s = .next t ∧
      (t.peek (effAddr s.index 0)).toNat = (s.getV x).toNat / 100 ∧
      (t.peek (effAddr s.index 1)).toNat = (s.getV x).toNat / 10 % 10 ∧
      (t.peek (effAddr s.index 2)).toNat = (s.getV x).toNat % 10 ∧
      Frame [] [] (effAddrs s.index 3) s t

/-- FX55 with I + X at most 0xFFF: V[0] to V[X], inclusive, stand at I to I + X, I is unchanged and so is
everything else (`43_index_and_memory.md` R155, R150). -/
def Obligations.StoreRegsStores : Prop :=
  ∀ (s : State) (x : Reg), s.index.toNat + x.val ≤ 0xFFF →
    ∃ t, exec (.storeRegs x) s = .next t ∧
      (∀ r : Reg, r ≤ x → t.peek (effAddr s.index r.val) = s.getV r) ∧
      Frame [] [] (effAddrs s.index (x.val + 1)) s t

/-- FX65 with I + X at most 0xFFF: V[0] to V[X], inclusive, are the bytes at I to I + X, the registers above X, I
and everything else are unchanged (`43_index_and_memory.md` R156, R150). -/
def Obligations.LoadRegsLoads : Prop :=
  ∀ (s : State) (x : Reg), s.index.toNat + x.val ≤ 0xFFF →
    ∃ t, exec (.loadRegs x) s = .next t ∧
      (∀ r : Reg, r ≤ x → t.getV r = s.peek (effAddr s.index r.val)) ∧ Frame (firstRegs x) [] [] s t

/-- A data address above 0xFFF is the undefined point MemOutOfRange, a model-level fault, for FX33, FX55, FX65 and
DXYN, and no such fault arises below (`20_memory.md` R51, `00_scope.md` R8, decision D7). -/
def Obligations.MemOutOfRange : Prop :=
  ∀ (s : State) (x y : Reg) (n : Nibble),
    (exec (.ldB x) s = .fault .memOutOfRange ↔ 0xFFF < s.index.toNat + 2) ∧
    (exec (.storeRegs x) s = .fault .memOutOfRange ↔ 0xFFF < s.index.toNat + x.val) ∧
    (exec (.loadRegs x) s = .fault .memOutOfRange ↔ 0xFFF < s.index.toNat + x.val) ∧
    (exec (.drw x y n) s = .fault .memOutOfRange ↔ 0 < n.toNat ∧ 0xFFF < s.index.toNat + (n.toNat - 1))

/-! ### Display -/

/-- 00E0: every pixel is clear and nothing else changes, VF included (`44_display.md` R170). -/
def Obligations.ClsClears : Prop :=
  ∀ s : State,
    decodeWord 0x00E0 = .ok .cls ∧
    ∃ t, exec .cls s = .next t ∧ (∀ p, pixel t.fb p = false) ∧ Frame [] [.fb] [] s t

/-- DXYN with its N bytes inside memory (or N = 0): exactly the pixels under a 1 bit of the sprite are inverted,
with wrap-around on both axes; VF is 1 if one of them was set, else 0; a coordinate taken from VF is 0; I, memory
and everything else are unchanged (`44_display.md` R171, R173, decisions D3, D4). -/
def Obligations.DrwDraws : Prop :=
  ∀ (s : State) (x y : Reg) (n : Nibble), (n.toNat = 0 ∨ s.index.toNat + (n.toNat - 1) ≤ 0xFFF) →
    ∃ t, exec (.drw x y n) s = .next t ∧
      (∀ p, s.spriteCovers (s.coordinate x) (s.coordinate y) n.toNat p → pixel t.fb p = !pixel s.fb p) ∧
      (∀ p, ¬ s.spriteCovers (s.coordinate x) (s.coordinate y) n.toNat p → pixel t.fb p = pixel s.fb p) ∧
      ((∃ p, s.spriteCovers (s.coordinate x) (s.coordinate y) n.toNat p ∧ pixel s.fb p = true) →
        t.getV VF = 1) ∧
      ((∀ p, s.spriteCovers (s.coordinate x) (s.coordinate y) n.toNat p → pixel s.fb p = false) →
        t.getV VF = 0) ∧
      Frame [VF] [.fb] [] s t

/-- The same draw twice restores the screen exactly, for X and Y other than 0xF (`44_display.md` R173 (1)). -/
def Obligations.DrawTwiceRestores : Prop :=
  ∀ (s t : State) (x y : Reg) (n : Nibble), x ≠ VF → y ≠ VF → exec (.drw x y n) s = .next t →
    ∃ u, exec (.drw x y n) t = .next u ∧ u.fb = s.fb

/-! ### Timers and keys -/

/-- FX07: V[X] is DT, which stays; FX15: DT is V[X]; FX18: ST is V[X], and TONE is not changed
(`45_timers_and_input.md` R180, R182, R183). -/
def Obligations.TimerAccess : Prop :=
  ∀ (s : State) (x : Reg),
    (∃ t, exec (.ldVxDt x) s = .next t ∧ t.getV x = s.dt ∧ Frame [x] [] [] s t) ∧
    (∃ t, exec (.ldDtVx x) s = .next t ∧ t.dt = s.getV x ∧ Frame [] [.dt] [] s t) ∧
    (∃ t, exec (.ldStVx x) s = .next t ∧ t.st = s.getV x ∧ Frame [] [.st] [] s t)

/-- FX0A: a key wait that captures X is pending, and nothing else changes: V[X] is not written and pc stays at the
next instruction (`45_timers_and_input.md` R181). -/
def Obligations.KeyWaitBegins : Prop :=
  ∀ (s : State) (x : Reg),
    ∃ t, exec (.ldVxK x) s = .next t ∧ t.keyWait = some x ∧ Frame [] [.keyWait] [] s t

/-- EX9E skips when the key numbered by the value of V[X] is held and EXA1 when it is not, for V[X] at most 15;
the flags are only read (`45_timers_and_input.md` R184, R185). -/
def Obligations.SkipsOnKey : Prop :=
  ∀ (s : State) (x : Reg) (k : Key), (s.getV x).toNat = k.val →
    (∃ t, exec (.skp x) s = .next t ∧ t.pc = (if s.keys[k] = true then s.pc + 2 else s.pc) ∧
      Frame [] [.pc] [] s t) ∧
    (∃ t, exec (.sknp x) s = .next t ∧ t.pc = (if s.keys[k] = true then s.pc else s.pc + 2) ∧
      Frame [] [.pc] [] s t)

/-- EX9E and EXA1 with V[X] above 15 are the undefined point KeyIndexOutOfRange, a model-level fault
(`45_timers_and_input.md` R186, `00_scope.md` R8, decision D11). -/
def Obligations.KeyIndexOutOfRange : Prop :=
  ∀ (s : State) (x : Reg), 15 < (s.getV x).toNat →
    exec (.skp x) s = .fault .keyIndexOutOfRange ∧ exec (.sknp x) s = .fault .keyIndexOutOfRange

/-! ### The whole machine -/

/-- Every step of the machine keeps the invariant: memory canonical, at most 16 stack entries, never paused and
halted together, never halted inside a tick (`40_instruction_cycle.md` R101, `60_exceptions.md` R208, decision D10,
log entries 2 and 6). -/
def Obligations.StepKeepsInv : Prop :=
  ∀ s t : State, s.Inv → step s = .next t → t.Inv

/-- Every step keeps pc at most 0x10FE and every return address in 0x0002 to 0x1000, so a wrapped pc is never used
(`10_state.md` R23, `41_control_transfer.md` R113, R118). -/
def Obligations.StepKeepsPcBound : Prop :=
  ∀ s t : State, s.PcBound → step s = .next t → t.PcBound

/-- Two canonical memories that read the same at every address are the same data (the model's canonical form,
log entry 6). -/
def Obligations.CanonicalMemoryUnique : Prop :=
  ∀ (font : Font) (m m' : Memory), Memory.wf font m → Memory.wf font m' →
    (∀ a, Memory.read font m a = Memory.read font m' a) → m = m'

/-- Who writes what, over all instructions: none writes the key flags, TONE, PRESENT, a reply, the host's events or
the font; only 00E0 and DXYN the screen; only FX15 and FX18 a timer; only 2NNN and 00EE the stack and the fault
latch; only ANNN, FX1E and FX29 I; only FX33 and FX55 memory; only FX0A the key wait; only CXKK draws
(`00_scope.md` R10, `10_state.md` R20 to R30, `44_display.md` R173 (4), decision D21). -/
def Obligations.InstructionWriters : Prop :=
  ∀ (i : Instr) (s t : State), exec i s = .next t →
    (t.keys = s.keys ∧ t.tone = s.tone ∧ t.present = s.present ∧ t.reply = s.reply ∧ t.inbox = s.inbox ∧
      t.font = s.font) ∧
    (t.fb ≠ s.fb → i = .cls ∨ ∃ x y n, i = .drw x y n) ∧
    (t.dt ≠ s.dt → ∃ x, i = .ldDtVx x) ∧ (t.st ≠ s.st → ∃ x, i = .ldStVx x) ∧
    (t.stack ≠ s.stack ∨ t.fault ≠ s.fault → i = .ret ∨ ∃ nnn, i = .call nnn) ∧
    (t.index ≠ s.index → (∃ nnn, i = .ldI nnn) ∨ (∃ x, i = .addI x) ∨ ∃ x, i = .ldF x) ∧
    ((∃ a, t.peek a ≠ s.peek a) → (∃ x, i = .ldB x) ∨ ∃ x, i = .storeRegs x) ∧
    (t.keyWait ≠ s.keyWait → ∃ x, i = .ldVxK x) ∧ (t.draws ≠ s.draws → ∃ x kk, i = .rnd x kk)

/-- VF changes only by the six instructions that define a flag, or where X = 0xF names it as the destination
(`10_state.md` R21, decision D21). -/
def Obligations.FlagWriters : Prop :=
  ∀ (i : Instr) (s t : State), exec i s = .next t → t.getV VF ≠ s.getV VF →
    ((∃ x y, i = .addReg x y ∨ i = .subReg x y ∨ i = .shr x y ∨ i = .subnReg x y ∨ i = .shl x y) ∨
      ∃ x y n, i = .drw x y n) ∨
    ((∃ kk, i = .ldImm VF kk ∨ i = .addImm VF kk ∨ i = .rnd VF kk) ∨
      (∃ y, i = .ldReg VF y ∨ i = .orReg VF y ∨ i = .andReg VF y ∨ i = .xorReg VF y) ∨
      i = .ldVxDt VF ∨ i = .loadRegs VF)

/-- Only EX9E and EXA1 can learn anything of the key flags: for every other instruction, other flags give the same
outcome with those flags (`10_state.md` R28, `45_timers_and_input.md` R181). -/
def Obligations.OnlyKeySkipsReadKeys : Prop :=
  ∀ (i : Instr) (s : State) (ks : Vector Bool 16), (∀ x, i ≠ .skp x ∧ i ≠ .sknp x) →
    exec i (s.setKeys ks) = mapNext (fun t => t.setKeys ks) (exec i s)

/-- The complete list of ways an instruction can stop the model: MemOutOfRange from DXYN, FX33, FX55, FX65 and
KeyIndexOutOfRange from EX9E, EXA1; no other instruction has an undefined point (`60_exceptions.md` R200,
decisions D7, D11). -/
def Obligations.FaultsOnlyFrom : Prop :=
  ∀ (i : Instr) (s : State) (f : Fault), exec i s = .fault f →
    (f = .memOutOfRange ∧
      ((∃ x y n, i = .drw x y n) ∨ (∃ x, i = .ldB x) ∨ (∃ x, i = .storeRegs x) ∨ ∃ x, i = .loadRegs x)) ∨
    (f = .keyIndexOutOfRange ∧ ((∃ x, i = .skp x) ∨ ∃ x, i = .sknp x))

/-- The numeric fault codes, which are the spec's own decision D23: the output `fault` carries 0 exactly when no
fault is latched, 1 after an illegal word, 2 after 00EE on an empty stack, 3 after 2NNN on a full one; a
`load_program` that does not fit replies with code 4 and leaves the output `fault` as it was
(`60_exceptions.md` R200 to R204). -/
def Obligations.FaultCodes : Prop :=
  ∀ s : State,
    (s.faultCode = 0 ↔ s.fault = none) ∧
    (∀ (k : Nat) (w : Word), s.Running k → s.fetchWord = some w → wordWellFormed w = false →
      ∃ t, step s = .next t ∧ t.faultCode = 1) ∧
    (s.stack = [] → ∃ t, exec .ret s = .next t ∧ t.faultCode = 2) ∧
    (16 ≤ s.stack.length → ∀ nnn, ∃ t, exec (.call nnn) s = .next t ∧ t.faultCode = 3) ∧
    (∀ (bytes : List Byte) (rest : List Event),
      s.tick = none → s.inbox = .loadProgram bytes :: rest → 3584 < bytes.length →
      ∃ t, step s = .next t ∧ t.replyCode = 4 ∧ t.faultCode = s.faultCode)
end

