-- ==== Sys2Proof/Laws/State.lean ====
section
/-! SUPPORT. One lemma per field per update of `State`, each true by `rfl`, and what the derived reads `getV` and
`peek` see of each update. -/

namespace Sys2Proof.Machine

/-! ### `setV` -/

theorem State.setV_v (s : State) (r : Reg) (b : Byte) : (s.setV r b).v = s.v.set r b := rfl
@[simp] theorem State.setV_index (s : State) (r : Reg) (b : Byte) : (s.setV r b).index = s.index := rfl
@[simp] theorem State.setV_pc (s : State) (r : Reg) (b : Byte) : (s.setV r b).pc = s.pc := rfl
@[simp] theorem State.setV_mem (s : State) (r : Reg) (b : Byte) : (s.setV r b).mem = s.mem := rfl
@[simp] theorem State.setV_stack (s : State) (r : Reg) (b : Byte) : (s.setV r b).stack = s.stack := rfl
@[simp] theorem State.setV_dt (s : State) (r : Reg) (b : Byte) : (s.setV r b).dt = s.dt := rfl
@[simp] theorem State.setV_st (s : State) (r : Reg) (b : Byte) : (s.setV r b).st = s.st := rfl
@[simp] theorem State.setV_fb (s : State) (r : Reg) (b : Byte) : (s.setV r b).fb = s.fb := rfl
@[simp] theorem State.setV_keys (s : State) (r : Reg) (b : Byte) : (s.setV r b).keys = s.keys := rfl
@[simp] theorem State.setV_keyWait (s : State) (r : Reg) (b : Byte) : (s.setV r b).keyWait = s.keyWait := rfl
@[simp] theorem State.setV_fault (s : State) (r : Reg) (b : Byte) : (s.setV r b).fault = s.fault := rfl
@[simp] theorem State.setV_tone (s : State) (r : Reg) (b : Byte) : (s.setV r b).tone = s.tone := rfl
@[simp] theorem State.setV_present (s : State) (r : Reg) (b : Byte) : (s.setV r b).present = s.present := rfl
@[simp] theorem State.setV_reply (s : State) (r : Reg) (b : Byte) : (s.setV r b).reply = s.reply := rfl
@[simp] theorem State.setV_tick (s : State) (r : Reg) (b : Byte) : (s.setV r b).tick = s.tick := rfl
@[simp] theorem State.setV_inbox (s : State) (r : Reg) (b : Byte) : (s.setV r b).inbox = s.inbox := rfl
@[simp] theorem State.setV_font (s : State) (r : Reg) (b : Byte) : (s.setV r b).font = s.font := rfl
@[simp] theorem State.setV_draws (s : State) (r : Reg) (b : Byte) : (s.setV r b).draws = s.draws := rfl
@[simp] theorem State.setV_peek (s : State) (r : Reg) (b : Byte) (x : Nat) : (s.setV r b).peek x = s.peek x := rfl

/-! ### `setFirstV` -/

theorem State.setFirstV_v (s : State) (bs : List Byte) :
    (s.setFirstV bs).v = Vector.ofFn (fun r : Reg => bs.getD r.val (s.getV r)) := rfl
@[simp] theorem State.setFirstV_index (s : State) (bs : List Byte) : (s.setFirstV bs).index = s.index := by simp only [State.setFirstV]
@[simp] theorem State.setFirstV_pc (s : State) (bs : List Byte) : (s.setFirstV bs).pc = s.pc := by simp only [State.setFirstV]
@[simp] theorem State.setFirstV_mem (s : State) (bs : List Byte) : (s.setFirstV bs).mem = s.mem := by simp only [State.setFirstV]
@[simp] theorem State.setFirstV_stack (s : State) (bs : List Byte) : (s.setFirstV bs).stack = s.stack := by simp only [State.setFirstV]
@[simp] theorem State.setFirstV_dt (s : State) (bs : List Byte) : (s.setFirstV bs).dt = s.dt := by simp only [State.setFirstV]
@[simp] theorem State.setFirstV_st (s : State) (bs : List Byte) : (s.setFirstV bs).st = s.st := by simp only [State.setFirstV]
@[simp] theorem State.setFirstV_fb (s : State) (bs : List Byte) : (s.setFirstV bs).fb = s.fb := by simp only [State.setFirstV]
@[simp] theorem State.setFirstV_keys (s : State) (bs : List Byte) : (s.setFirstV bs).keys = s.keys := by simp only [State.setFirstV]
@[simp] theorem State.setFirstV_keyWait (s : State) (bs : List Byte) : (s.setFirstV bs).keyWait = s.keyWait := by simp only [State.setFirstV]
@[simp] theorem State.setFirstV_fault (s : State) (bs : List Byte) : (s.setFirstV bs).fault = s.fault := by simp only [State.setFirstV]
@[simp] theorem State.setFirstV_tone (s : State) (bs : List Byte) : (s.setFirstV bs).tone = s.tone := by simp only [State.setFirstV]
@[simp] theorem State.setFirstV_present (s : State) (bs : List Byte) : (s.setFirstV bs).present = s.present := by simp only [State.setFirstV]
@[simp] theorem State.setFirstV_reply (s : State) (bs : List Byte) : (s.setFirstV bs).reply = s.reply := by simp only [State.setFirstV]
@[simp] theorem State.setFirstV_tick (s : State) (bs : List Byte) : (s.setFirstV bs).tick = s.tick := by simp only [State.setFirstV]
@[simp] theorem State.setFirstV_inbox (s : State) (bs : List Byte) : (s.setFirstV bs).inbox = s.inbox := by simp only [State.setFirstV]
@[simp] theorem State.setFirstV_font (s : State) (bs : List Byte) : (s.setFirstV bs).font = s.font := by simp only [State.setFirstV]
@[simp] theorem State.setFirstV_draws (s : State) (bs : List Byte) : (s.setFirstV bs).draws = s.draws := by simp only [State.setFirstV]
@[simp] theorem State.setFirstV_peek (s : State) (bs : List Byte) (x : Nat) : (s.setFirstV bs).peek x = s.peek x := by simp only [State.setFirstV, State.peek]

/-! ### `setIndex` -/

@[simp] theorem State.setIndex_v (s : State) (a : Word) : (s.setIndex a).v = s.v := rfl
@[simp] theorem State.setIndex_index (s : State) (a : Word) : (s.setIndex a).index = a := rfl
@[simp] theorem State.setIndex_pc (s : State) (a : Word) : (s.setIndex a).pc = s.pc := rfl
@[simp] theorem State.setIndex_mem (s : State) (a : Word) : (s.setIndex a).mem = s.mem := rfl
@[simp] theorem State.setIndex_stack (s : State) (a : Word) : (s.setIndex a).stack = s.stack := rfl
@[simp] theorem State.setIndex_dt (s : State) (a : Word) : (s.setIndex a).dt = s.dt := rfl
@[simp] theorem State.setIndex_st (s : State) (a : Word) : (s.setIndex a).st = s.st := rfl
@[simp] theorem State.setIndex_fb (s : State) (a : Word) : (s.setIndex a).fb = s.fb := rfl
@[simp] theorem State.setIndex_keys (s : State) (a : Word) : (s.setIndex a).keys = s.keys := rfl
@[simp] theorem State.setIndex_keyWait (s : State) (a : Word) : (s.setIndex a).keyWait = s.keyWait := rfl
@[simp] theorem State.setIndex_fault (s : State) (a : Word) : (s.setIndex a).fault = s.fault := rfl
@[simp] theorem State.setIndex_tone (s : State) (a : Word) : (s.setIndex a).tone = s.tone := rfl
@[simp] theorem State.setIndex_present (s : State) (a : Word) : (s.setIndex a).present = s.present := rfl
@[simp] theorem State.setIndex_reply (s : State) (a : Word) : (s.setIndex a).reply = s.reply := rfl
@[simp] theorem State.setIndex_tick (s : State) (a : Word) : (s.setIndex a).tick = s.tick := rfl
@[simp] theorem State.setIndex_inbox (s : State) (a : Word) : (s.setIndex a).inbox = s.inbox := rfl
@[simp] theorem State.setIndex_font (s : State) (a : Word) : (s.setIndex a).font = s.font := rfl
@[simp] theorem State.setIndex_draws (s : State) (a : Word) : (s.setIndex a).draws = s.draws := rfl
@[simp] theorem State.setIndex_getV (s : State) (a : Word) (q : Reg) : (s.setIndex a).getV q = s.getV q := rfl
@[simp] theorem State.setIndex_peek (s : State) (a : Word) (x : Nat) : (s.setIndex a).peek x = s.peek x := rfl

/-! ### `setPc` -/

@[simp] theorem State.setPc_v (s : State) (a : Word) : (s.setPc a).v = s.v := rfl
@[simp] theorem State.setPc_index (s : State) (a : Word) : (s.setPc a).index = s.index := rfl
@[simp] theorem State.setPc_pc (s : State) (a : Word) : (s.setPc a).pc = a := rfl
@[simp] theorem State.setPc_mem (s : State) (a : Word) : (s.setPc a).mem = s.mem := rfl
@[simp] theorem State.setPc_stack (s : State) (a : Word) : (s.setPc a).stack = s.stack := rfl
@[simp] theorem State.setPc_dt (s : State) (a : Word) : (s.setPc a).dt = s.dt := rfl
@[simp] theorem State.setPc_st (s : State) (a : Word) : (s.setPc a).st = s.st := rfl
@[simp] theorem State.setPc_fb (s : State) (a : Word) : (s.setPc a).fb = s.fb := rfl
@[simp] theorem State.setPc_keys (s : State) (a : Word) : (s.setPc a).keys = s.keys := rfl
@[simp] theorem State.setPc_keyWait (s : State) (a : Word) : (s.setPc a).keyWait = s.keyWait := rfl
@[simp] theorem State.setPc_fault (s : State) (a : Word) : (s.setPc a).fault = s.fault := rfl
@[simp] theorem State.setPc_tone (s : State) (a : Word) : (s.setPc a).tone = s.tone := rfl
@[simp] theorem State.setPc_present (s : State) (a : Word) : (s.setPc a).present = s.present := rfl
@[simp] theorem State.setPc_reply (s : State) (a : Word) : (s.setPc a).reply = s.reply := rfl
@[simp] theorem State.setPc_tick (s : State) (a : Word) : (s.setPc a).tick = s.tick := rfl
@[simp] theorem State.setPc_inbox (s : State) (a : Word) : (s.setPc a).inbox = s.inbox := rfl
@[simp] theorem State.setPc_font (s : State) (a : Word) : (s.setPc a).font = s.font := rfl
@[simp] theorem State.setPc_draws (s : State) (a : Word) : (s.setPc a).draws = s.draws := rfl
@[simp] theorem State.setPc_getV (s : State) (a : Word) (q : Reg) : (s.setPc a).getV q = s.getV q := rfl
@[simp] theorem State.setPc_peek (s : State) (a : Word) (x : Nat) : (s.setPc a).peek x = s.peek x := rfl

/-! ### `setDt` -/

@[simp] theorem State.setDt_v (s : State) (b : Byte) : (s.setDt b).v = s.v := rfl
@[simp] theorem State.setDt_index (s : State) (b : Byte) : (s.setDt b).index = s.index := rfl
@[simp] theorem State.setDt_pc (s : State) (b : Byte) : (s.setDt b).pc = s.pc := rfl
@[simp] theorem State.setDt_mem (s : State) (b : Byte) : (s.setDt b).mem = s.mem := rfl
@[simp] theorem State.setDt_stack (s : State) (b : Byte) : (s.setDt b).stack = s.stack := rfl
@[simp] theorem State.setDt_dt (s : State) (b : Byte) : (s.setDt b).dt = b := rfl
@[simp] theorem State.setDt_st (s : State) (b : Byte) : (s.setDt b).st = s.st := rfl
@[simp] theorem State.setDt_fb (s : State) (b : Byte) : (s.setDt b).fb = s.fb := rfl
@[simp] theorem State.setDt_keys (s : State) (b : Byte) : (s.setDt b).keys = s.keys := rfl
@[simp] theorem State.setDt_keyWait (s : State) (b : Byte) : (s.setDt b).keyWait = s.keyWait := rfl
@[simp] theorem State.setDt_fault (s : State) (b : Byte) : (s.setDt b).fault = s.fault := rfl
@[simp] theorem State.setDt_tone (s : State) (b : Byte) : (s.setDt b).tone = s.tone := rfl
@[simp] theorem State.setDt_present (s : State) (b : Byte) : (s.setDt b).present = s.present := rfl
@[simp] theorem State.setDt_reply (s : State) (b : Byte) : (s.setDt b).reply = s.reply := rfl
@[simp] theorem State.setDt_tick (s : State) (b : Byte) : (s.setDt b).tick = s.tick := rfl
@[simp] theorem State.setDt_inbox (s : State) (b : Byte) : (s.setDt b).inbox = s.inbox := rfl
@[simp] theorem State.setDt_font (s : State) (b : Byte) : (s.setDt b).font = s.font := rfl
@[simp] theorem State.setDt_draws (s : State) (b : Byte) : (s.setDt b).draws = s.draws := rfl
@[simp] theorem State.setDt_getV (s : State) (b : Byte) (q : Reg) : (s.setDt b).getV q = s.getV q := rfl
@[simp] theorem State.setDt_peek (s : State) (b : Byte) (x : Nat) : (s.setDt b).peek x = s.peek x := rfl

/-! ### `setSt` -/

@[simp] theorem State.setSt_v (s : State) (b : Byte) : (s.setSt b).v = s.v := rfl
@[simp] theorem State.setSt_index (s : State) (b : Byte) : (s.setSt b).index = s.index := rfl
@[simp] theorem State.setSt_pc (s : State) (b : Byte) : (s.setSt b).pc = s.pc := rfl
@[simp] theorem State.setSt_mem (s : State) (b : Byte) : (s.setSt b).mem = s.mem := rfl
@[simp] theorem State.setSt_stack (s : State) (b : Byte) : (s.setSt b).stack = s.stack := rfl
@[simp] theorem State.setSt_dt (s : State) (b : Byte) : (s.setSt b).dt = s.dt := rfl
@[simp] theorem State.setSt_st (s : State) (b : Byte) : (s.setSt b).st = b := rfl
@[simp] theorem State.setSt_fb (s : State) (b : Byte) : (s.setSt b).fb = s.fb := rfl
@[simp] theorem State.setSt_keys (s : State) (b : Byte) : (s.setSt b).keys = s.keys := rfl
@[simp] theorem State.setSt_keyWait (s : State) (b : Byte) : (s.setSt b).keyWait = s.keyWait := rfl
@[simp] theorem State.setSt_fault (s : State) (b : Byte) : (s.setSt b).fault = s.fault := rfl
@[simp] theorem State.setSt_tone (s : State) (b : Byte) : (s.setSt b).tone = s.tone := rfl
@[simp] theorem State.setSt_present (s : State) (b : Byte) : (s.setSt b).present = s.present := rfl
@[simp] theorem State.setSt_reply (s : State) (b : Byte) : (s.setSt b).reply = s.reply := rfl
@[simp] theorem State.setSt_tick (s : State) (b : Byte) : (s.setSt b).tick = s.tick := rfl
@[simp] theorem State.setSt_inbox (s : State) (b : Byte) : (s.setSt b).inbox = s.inbox := rfl
@[simp] theorem State.setSt_font (s : State) (b : Byte) : (s.setSt b).font = s.font := rfl
@[simp] theorem State.setSt_draws (s : State) (b : Byte) : (s.setSt b).draws = s.draws := rfl
@[simp] theorem State.setSt_getV (s : State) (b : Byte) (q : Reg) : (s.setSt b).getV q = s.getV q := rfl
@[simp] theorem State.setSt_peek (s : State) (b : Byte) (x : Nat) : (s.setSt b).peek x = s.peek x := rfl

/-! ### `setFb` -/

@[simp] theorem State.setFb_v (s : State) (f : Screen) : (s.setFb f).v = s.v := rfl
@[simp] theorem State.setFb_index (s : State) (f : Screen) : (s.setFb f).index = s.index := rfl
@[simp] theorem State.setFb_pc (s : State) (f : Screen) : (s.setFb f).pc = s.pc := rfl
@[simp] theorem State.setFb_mem (s : State) (f : Screen) : (s.setFb f).mem = s.mem := rfl
@[simp] theorem State.setFb_stack (s : State) (f : Screen) : (s.setFb f).stack = s.stack := rfl
@[simp] theorem State.setFb_dt (s : State) (f : Screen) : (s.setFb f).dt = s.dt := rfl
@[simp] theorem State.setFb_st (s : State) (f : Screen) : (s.setFb f).st = s.st := rfl
@[simp] theorem State.setFb_fb (s : State) (f : Screen) : (s.setFb f).fb = f := rfl
@[simp] theorem State.setFb_keys (s : State) (f : Screen) : (s.setFb f).keys = s.keys := rfl
@[simp] theorem State.setFb_keyWait (s : State) (f : Screen) : (s.setFb f).keyWait = s.keyWait := rfl
@[simp] theorem State.setFb_fault (s : State) (f : Screen) : (s.setFb f).fault = s.fault := rfl
@[simp] theorem State.setFb_tone (s : State) (f : Screen) : (s.setFb f).tone = s.tone := rfl
@[simp] theorem State.setFb_present (s : State) (f : Screen) : (s.setFb f).present = s.present := rfl
@[simp] theorem State.setFb_reply (s : State) (f : Screen) : (s.setFb f).reply = s.reply := rfl
@[simp] theorem State.setFb_tick (s : State) (f : Screen) : (s.setFb f).tick = s.tick := rfl
@[simp] theorem State.setFb_inbox (s : State) (f : Screen) : (s.setFb f).inbox = s.inbox := rfl
@[simp] theorem State.setFb_font (s : State) (f : Screen) : (s.setFb f).font = s.font := rfl
@[simp] theorem State.setFb_draws (s : State) (f : Screen) : (s.setFb f).draws = s.draws := rfl
@[simp] theorem State.setFb_getV (s : State) (f : Screen) (q : Reg) : (s.setFb f).getV q = s.getV q := rfl
@[simp] theorem State.setFb_peek (s : State) (f : Screen) (x : Nat) : (s.setFb f).peek x = s.peek x := rfl

/-! ### `setMem` -/

@[simp] theorem State.setMem_v (s : State) (m : Memory) : (s.setMem m).v = s.v := rfl
@[simp] theorem State.setMem_index (s : State) (m : Memory) : (s.setMem m).index = s.index := rfl
@[simp] theorem State.setMem_pc (s : State) (m : Memory) : (s.setMem m).pc = s.pc := rfl
@[simp] theorem State.setMem_mem (s : State) (m : Memory) : (s.setMem m).mem = m := rfl
@[simp] theorem State.setMem_stack (s : State) (m : Memory) : (s.setMem m).stack = s.stack := rfl
@[simp] theorem State.setMem_dt (s : State) (m : Memory) : (s.setMem m).dt = s.dt := rfl
@[simp] theorem State.setMem_st (s : State) (m : Memory) : (s.setMem m).st = s.st := rfl
@[simp] theorem State.setMem_fb (s : State) (m : Memory) : (s.setMem m).fb = s.fb := rfl
@[simp] theorem State.setMem_keys (s : State) (m : Memory) : (s.setMem m).keys = s.keys := rfl
@[simp] theorem State.setMem_keyWait (s : State) (m : Memory) : (s.setMem m).keyWait = s.keyWait := rfl
@[simp] theorem State.setMem_fault (s : State) (m : Memory) : (s.setMem m).fault = s.fault := rfl
@[simp] theorem State.setMem_tone (s : State) (m : Memory) : (s.setMem m).tone = s.tone := rfl
@[simp] theorem State.setMem_present (s : State) (m : Memory) : (s.setMem m).present = s.present := rfl
@[simp] theorem State.setMem_reply (s : State) (m : Memory) : (s.setMem m).reply = s.reply := rfl
@[simp] theorem State.setMem_tick (s : State) (m : Memory) : (s.setMem m).tick = s.tick := rfl
@[simp] theorem State.setMem_inbox (s : State) (m : Memory) : (s.setMem m).inbox = s.inbox := rfl
@[simp] theorem State.setMem_font (s : State) (m : Memory) : (s.setMem m).font = s.font := rfl
@[simp] theorem State.setMem_draws (s : State) (m : Memory) : (s.setMem m).draws = s.draws := rfl
@[simp] theorem State.setMem_getV (s : State) (m : Memory) (q : Reg) : (s.setMem m).getV q = s.getV q := rfl
@[simp] theorem State.setMem_peek (s : State) (m : Memory) (x : Nat) : (s.setMem m).peek x = Memory.read s.font m x := rfl

/-! ### `setStack` -/

@[simp] theorem State.setStack_v (s : State) (l : List Word) : (s.setStack l).v = s.v := rfl
@[simp] theorem State.setStack_index (s : State) (l : List Word) : (s.setStack l).index = s.index := rfl
@[simp] theorem State.setStack_pc (s : State) (l : List Word) : (s.setStack l).pc = s.pc := rfl
@[simp] theorem State.setStack_mem (s : State) (l : List Word) : (s.setStack l).mem = s.mem := rfl
@[simp] theorem State.setStack_stack (s : State) (l : List Word) : (s.setStack l).stack = l := rfl
@[simp] theorem State.setStack_dt (s : State) (l : List Word) : (s.setStack l).dt = s.dt := rfl
@[simp] theorem State.setStack_st (s : State) (l : List Word) : (s.setStack l).st = s.st := rfl
@[simp] theorem State.setStack_fb (s : State) (l : List Word) : (s.setStack l).fb = s.fb := rfl
@[simp] theorem State.setStack_keys (s : State) (l : List Word) : (s.setStack l).keys = s.keys := rfl
@[simp] theorem State.setStack_keyWait (s : State) (l : List Word) : (s.setStack l).keyWait = s.keyWait := rfl
@[simp] theorem State.setStack_fault (s : State) (l : List Word) : (s.setStack l).fault = s.fault := rfl
@[simp] theorem State.setStack_tone (s : State) (l : List Word) : (s.setStack l).tone = s.tone := rfl
@[simp] theorem State.setStack_present (s : State) (l : List Word) : (s.setStack l).present = s.present := rfl
@[simp] theorem State.setStack_reply (s : State) (l : List Word) : (s.setStack l).reply = s.reply := rfl
@[simp] theorem State.setStack_tick (s : State) (l : List Word) : (s.setStack l).tick = s.tick := rfl
@[simp] theorem State.setStack_inbox (s : State) (l : List Word) : (s.setStack l).inbox = s.inbox := rfl
@[simp] theorem State.setStack_font (s : State) (l : List Word) : (s.setStack l).font = s.font := rfl
@[simp] theorem State.setStack_draws (s : State) (l : List Word) : (s.setStack l).draws = s.draws := rfl
@[simp] theorem State.setStack_getV (s : State) (l : List Word) (q : Reg) : (s.setStack l).getV q = s.getV q := rfl
@[simp] theorem State.setStack_peek (s : State) (l : List Word) (x : Nat) : (s.setStack l).peek x = s.peek x := rfl

/-! ### `setKeys` -/

@[simp] theorem State.setKeys_v (s : State) (ks : Vector Bool 16) : (s.setKeys ks).v = s.v := rfl
@[simp] theorem State.setKeys_index (s : State) (ks : Vector Bool 16) : (s.setKeys ks).index = s.index := rfl
@[simp] theorem State.setKeys_pc (s : State) (ks : Vector Bool 16) : (s.setKeys ks).pc = s.pc := rfl
@[simp] theorem State.setKeys_mem (s : State) (ks : Vector Bool 16) : (s.setKeys ks).mem = s.mem := rfl
@[simp] theorem State.setKeys_stack (s : State) (ks : Vector Bool 16) : (s.setKeys ks).stack = s.stack := rfl
@[simp] theorem State.setKeys_dt (s : State) (ks : Vector Bool 16) : (s.setKeys ks).dt = s.dt := rfl
@[simp] theorem State.setKeys_st (s : State) (ks : Vector Bool 16) : (s.setKeys ks).st = s.st := rfl
@[simp] theorem State.setKeys_fb (s : State) (ks : Vector Bool 16) : (s.setKeys ks).fb = s.fb := rfl
@[simp] theorem State.setKeys_keys (s : State) (ks : Vector Bool 16) : (s.setKeys ks).keys = ks := rfl
@[simp] theorem State.setKeys_keyWait (s : State) (ks : Vector Bool 16) : (s.setKeys ks).keyWait = s.keyWait := rfl
@[simp] theorem State.setKeys_fault (s : State) (ks : Vector Bool 16) : (s.setKeys ks).fault = s.fault := rfl
@[simp] theorem State.setKeys_tone (s : State) (ks : Vector Bool 16) : (s.setKeys ks).tone = s.tone := rfl
@[simp] theorem State.setKeys_present (s : State) (ks : Vector Bool 16) : (s.setKeys ks).present = s.present := rfl
@[simp] theorem State.setKeys_reply (s : State) (ks : Vector Bool 16) : (s.setKeys ks).reply = s.reply := rfl
@[simp] theorem State.setKeys_tick (s : State) (ks : Vector Bool 16) : (s.setKeys ks).tick = s.tick := rfl
@[simp] theorem State.setKeys_inbox (s : State) (ks : Vector Bool 16) : (s.setKeys ks).inbox = s.inbox := rfl
@[simp] theorem State.setKeys_font (s : State) (ks : Vector Bool 16) : (s.setKeys ks).font = s.font := rfl
@[simp] theorem State.setKeys_draws (s : State) (ks : Vector Bool 16) : (s.setKeys ks).draws = s.draws := rfl
@[simp] theorem State.setKeys_getV (s : State) (ks : Vector Bool 16) (q : Reg) : (s.setKeys ks).getV q = s.getV q := rfl
@[simp] theorem State.setKeys_peek (s : State) (ks : Vector Bool 16) (x : Nat) : (s.setKeys ks).peek x = s.peek x := rfl

/-! ### `setKeyWait` -/

@[simp] theorem State.setKeyWait_v (s : State) (k : Option Reg) : (s.setKeyWait k).v = s.v := rfl
@[simp] theorem State.setKeyWait_index (s : State) (k : Option Reg) : (s.setKeyWait k).index = s.index := rfl
@[simp] theorem State.setKeyWait_pc (s : State) (k : Option Reg) : (s.setKeyWait k).pc = s.pc := rfl
@[simp] theorem State.setKeyWait_mem (s : State) (k : Option Reg) : (s.setKeyWait k).mem = s.mem := rfl
@[simp] theorem State.setKeyWait_stack (s : State) (k : Option Reg) : (s.setKeyWait k).stack = s.stack := rfl
@[simp] theorem State.setKeyWait_dt (s : State) (k : Option Reg) : (s.setKeyWait k).dt = s.dt := rfl
@[simp] theorem State.setKeyWait_st (s : State) (k : Option Reg) : (s.setKeyWait k).st = s.st := rfl
@[simp] theorem State.setKeyWait_fb (s : State) (k : Option Reg) : (s.setKeyWait k).fb = s.fb := rfl
@[simp] theorem State.setKeyWait_keys (s : State) (k : Option Reg) : (s.setKeyWait k).keys = s.keys := rfl
@[simp] theorem State.setKeyWait_keyWait (s : State) (k : Option Reg) : (s.setKeyWait k).keyWait = k := rfl
@[simp] theorem State.setKeyWait_fault (s : State) (k : Option Reg) : (s.setKeyWait k).fault = s.fault := rfl
@[simp] theorem State.setKeyWait_tone (s : State) (k : Option Reg) : (s.setKeyWait k).tone = s.tone := rfl
@[simp] theorem State.setKeyWait_present (s : State) (k : Option Reg) : (s.setKeyWait k).present = s.present := rfl
@[simp] theorem State.setKeyWait_reply (s : State) (k : Option Reg) : (s.setKeyWait k).reply = s.reply := rfl
@[simp] theorem State.setKeyWait_tick (s : State) (k : Option Reg) : (s.setKeyWait k).tick = s.tick := rfl
@[simp] theorem State.setKeyWait_inbox (s : State) (k : Option Reg) : (s.setKeyWait k).inbox = s.inbox := rfl
@[simp] theorem State.setKeyWait_font (s : State) (k : Option Reg) : (s.setKeyWait k).font = s.font := rfl
@[simp] theorem State.setKeyWait_draws (s : State) (k : Option Reg) : (s.setKeyWait k).draws = s.draws := rfl
@[simp] theorem State.setKeyWait_getV (s : State) (k : Option Reg) (q : Reg) : (s.setKeyWait k).getV q = s.getV q := rfl
@[simp] theorem State.setKeyWait_peek (s : State) (k : Option Reg) (x : Nat) : (s.setKeyWait k).peek x = s.peek x := rfl

/-! ### `setTick` -/

@[simp] theorem State.setTick_v (s : State) (n : Option Nat) : (s.setTick n).v = s.v := rfl
@[simp] theorem State.setTick_index (s : State) (n : Option Nat) : (s.setTick n).index = s.index := rfl
@[simp] theorem State.setTick_pc (s : State) (n : Option Nat) : (s.setTick n).pc = s.pc := rfl
@[simp] theorem State.setTick_mem (s : State) (n : Option Nat) : (s.setTick n).mem = s.mem := rfl
@[simp] theorem State.setTick_stack (s : State) (n : Option Nat) : (s.setTick n).stack = s.stack := rfl
@[simp] theorem State.setTick_dt (s : State) (n : Option Nat) : (s.setTick n).dt = s.dt := rfl
@[simp] theorem State.setTick_st (s : State) (n : Option Nat) : (s.setTick n).st = s.st := rfl
@[simp] theorem State.setTick_fb (s : State) (n : Option Nat) : (s.setTick n).fb = s.fb := rfl
@[simp] theorem State.setTick_keys (s : State) (n : Option Nat) : (s.setTick n).keys = s.keys := rfl
@[simp] theorem State.setTick_keyWait (s : State) (n : Option Nat) : (s.setTick n).keyWait = s.keyWait := rfl
@[simp] theorem State.setTick_fault (s : State) (n : Option Nat) : (s.setTick n).fault = s.fault := rfl
@[simp] theorem State.setTick_tone (s : State) (n : Option Nat) : (s.setTick n).tone = s.tone := rfl
@[simp] theorem State.setTick_present (s : State) (n : Option Nat) : (s.setTick n).present = s.present := rfl
@[simp] theorem State.setTick_reply (s : State) (n : Option Nat) : (s.setTick n).reply = s.reply := rfl
@[simp] theorem State.setTick_tick (s : State) (n : Option Nat) : (s.setTick n).tick = n := rfl
@[simp] theorem State.setTick_inbox (s : State) (n : Option Nat) : (s.setTick n).inbox = s.inbox := rfl
@[simp] theorem State.setTick_font (s : State) (n : Option Nat) : (s.setTick n).font = s.font := rfl
@[simp] theorem State.setTick_draws (s : State) (n : Option Nat) : (s.setTick n).draws = s.draws := rfl
@[simp] theorem State.setTick_getV (s : State) (n : Option Nat) (q : Reg) : (s.setTick n).getV q = s.getV q := rfl
@[simp] theorem State.setTick_peek (s : State) (n : Option Nat) (x : Nat) : (s.setTick n).peek x = s.peek x := rfl

/-! ### `setInbox` -/

@[simp] theorem State.setInbox_v (s : State) (es : List Event) : (s.setInbox es).v = s.v := rfl
@[simp] theorem State.setInbox_index (s : State) (es : List Event) : (s.setInbox es).index = s.index := rfl
@[simp] theorem State.setInbox_pc (s : State) (es : List Event) : (s.setInbox es).pc = s.pc := rfl
@[simp] theorem State.setInbox_mem (s : State) (es : List Event) : (s.setInbox es).mem = s.mem := rfl
@[simp] theorem State.setInbox_stack (s : State) (es : List Event) : (s.setInbox es).stack = s.stack := rfl
@[simp] theorem State.setInbox_dt (s : State) (es : List Event) : (s.setInbox es).dt = s.dt := rfl
@[simp] theorem State.setInbox_st (s : State) (es : List Event) : (s.setInbox es).st = s.st := rfl
@[simp] theorem State.setInbox_fb (s : State) (es : List Event) : (s.setInbox es).fb = s.fb := rfl
@[simp] theorem State.setInbox_keys (s : State) (es : List Event) : (s.setInbox es).keys = s.keys := rfl
@[simp] theorem State.setInbox_keyWait (s : State) (es : List Event) : (s.setInbox es).keyWait = s.keyWait := rfl
@[simp] theorem State.setInbox_fault (s : State) (es : List Event) : (s.setInbox es).fault = s.fault := rfl
@[simp] theorem State.setInbox_tone (s : State) (es : List Event) : (s.setInbox es).tone = s.tone := rfl
@[simp] theorem State.setInbox_present (s : State) (es : List Event) : (s.setInbox es).present = s.present := rfl
@[simp] theorem State.setInbox_reply (s : State) (es : List Event) : (s.setInbox es).reply = s.reply := rfl
@[simp] theorem State.setInbox_tick (s : State) (es : List Event) : (s.setInbox es).tick = s.tick := rfl
@[simp] theorem State.setInbox_inbox (s : State) (es : List Event) : (s.setInbox es).inbox = es := rfl
@[simp] theorem State.setInbox_font (s : State) (es : List Event) : (s.setInbox es).font = s.font := rfl
@[simp] theorem State.setInbox_draws (s : State) (es : List Event) : (s.setInbox es).draws = s.draws := rfl
@[simp] theorem State.setInbox_getV (s : State) (es : List Event) (q : Reg) : (s.setInbox es).getV q = s.getV q := rfl
@[simp] theorem State.setInbox_peek (s : State) (es : List Event) (x : Nat) : (s.setInbox es).peek x = s.peek x := rfl

/-! ### `setReply` -/

@[simp] theorem State.setReply_v (s : State) (r : Option LoadReply) : (s.setReply r).v = s.v := rfl
@[simp] theorem State.setReply_index (s : State) (r : Option LoadReply) : (s.setReply r).index = s.index := rfl
@[simp] theorem State.setReply_pc (s : State) (r : Option LoadReply) : (s.setReply r).pc = s.pc := rfl
@[simp] theorem State.setReply_mem (s : State) (r : Option LoadReply) : (s.setReply r).mem = s.mem := rfl
@[simp] theorem State.setReply_stack (s : State) (r : Option LoadReply) : (s.setReply r).stack = s.stack := rfl
@[simp] theorem State.setReply_dt (s : State) (r : Option LoadReply) : (s.setReply r).dt = s.dt := rfl
@[simp] theorem State.setReply_st (s : State) (r : Option LoadReply) : (s.setReply r).st = s.st := rfl
@[simp] theorem State.setReply_fb (s : State) (r : Option LoadReply) : (s.setReply r).fb = s.fb := rfl
@[simp] theorem State.setReply_keys (s : State) (r : Option LoadReply) : (s.setReply r).keys = s.keys := rfl
@[simp] theorem State.setReply_keyWait (s : State) (r : Option LoadReply) : (s.setReply r).keyWait = s.keyWait := rfl
@[simp] theorem State.setReply_fault (s : State) (r : Option LoadReply) : (s.setReply r).fault = s.fault := rfl
@[simp] theorem State.setReply_tone (s : State) (r : Option LoadReply) : (s.setReply r).tone = s.tone := rfl
@[simp] theorem State.setReply_present (s : State) (r : Option LoadReply) : (s.setReply r).present = s.present := rfl
@[simp] theorem State.setReply_reply (s : State) (r : Option LoadReply) : (s.setReply r).reply = r := rfl
@[simp] theorem State.setReply_tick (s : State) (r : Option LoadReply) : (s.setReply r).tick = s.tick := rfl
@[simp] theorem State.setReply_inbox (s : State) (r : Option LoadReply) : (s.setReply r).inbox = s.inbox := rfl
@[simp] theorem State.setReply_font (s : State) (r : Option LoadReply) : (s.setReply r).font = s.font := rfl
@[simp] theorem State.setReply_draws (s : State) (r : Option LoadReply) : (s.setReply r).draws = s.draws := rfl
@[simp] theorem State.setReply_getV (s : State) (r : Option LoadReply) (q : Reg) : (s.setReply r).getV q = s.getV q := rfl
@[simp] theorem State.setReply_peek (s : State) (r : Option LoadReply) (x : Nat) : (s.setReply r).peek x = s.peek x := rfl

/-! ### `setTone` -/

@[simp] theorem State.setTone_v (s : State) (b : Bool) : (s.setTone b).v = s.v := rfl
@[simp] theorem State.setTone_index (s : State) (b : Bool) : (s.setTone b).index = s.index := rfl
@[simp] theorem State.setTone_pc (s : State) (b : Bool) : (s.setTone b).pc = s.pc := rfl
@[simp] theorem State.setTone_mem (s : State) (b : Bool) : (s.setTone b).mem = s.mem := rfl
@[simp] theorem State.setTone_stack (s : State) (b : Bool) : (s.setTone b).stack = s.stack := rfl
@[simp] theorem State.setTone_dt (s : State) (b : Bool) : (s.setTone b).dt = s.dt := rfl
@[simp] theorem State.setTone_st (s : State) (b : Bool) : (s.setTone b).st = s.st := rfl
@[simp] theorem State.setTone_fb (s : State) (b : Bool) : (s.setTone b).fb = s.fb := rfl
@[simp] theorem State.setTone_keys (s : State) (b : Bool) : (s.setTone b).keys = s.keys := rfl
@[simp] theorem State.setTone_keyWait (s : State) (b : Bool) : (s.setTone b).keyWait = s.keyWait := rfl
@[simp] theorem State.setTone_fault (s : State) (b : Bool) : (s.setTone b).fault = s.fault := rfl
@[simp] theorem State.setTone_tone (s : State) (b : Bool) : (s.setTone b).tone = b := rfl
@[simp] theorem State.setTone_present (s : State) (b : Bool) : (s.setTone b).present = s.present := rfl
@[simp] theorem State.setTone_reply (s : State) (b : Bool) : (s.setTone b).reply = s.reply := rfl
@[simp] theorem State.setTone_tick (s : State) (b : Bool) : (s.setTone b).tick = s.tick := rfl
@[simp] theorem State.setTone_inbox (s : State) (b : Bool) : (s.setTone b).inbox = s.inbox := rfl
@[simp] theorem State.setTone_font (s : State) (b : Bool) : (s.setTone b).font = s.font := rfl
@[simp] theorem State.setTone_draws (s : State) (b : Bool) : (s.setTone b).draws = s.draws := rfl
@[simp] theorem State.setTone_getV (s : State) (b : Bool) (q : Reg) : (s.setTone b).getV q = s.getV q := rfl
@[simp] theorem State.setTone_peek (s : State) (b : Bool) (x : Nat) : (s.setTone b).peek x = s.peek x := rfl

/-! ### `setPresent` -/

@[simp] theorem State.setPresent_v (s : State) (b : Bool) : (s.setPresent b).v = s.v := rfl
@[simp] theorem State.setPresent_index (s : State) (b : Bool) : (s.setPresent b).index = s.index := rfl
@[simp] theorem State.setPresent_pc (s : State) (b : Bool) : (s.setPresent b).pc = s.pc := rfl
@[simp] theorem State.setPresent_mem (s : State) (b : Bool) : (s.setPresent b).mem = s.mem := rfl
@[simp] theorem State.setPresent_stack (s : State) (b : Bool) : (s.setPresent b).stack = s.stack := rfl
@[simp] theorem State.setPresent_dt (s : State) (b : Bool) : (s.setPresent b).dt = s.dt := rfl
@[simp] theorem State.setPresent_st (s : State) (b : Bool) : (s.setPresent b).st = s.st := rfl
@[simp] theorem State.setPresent_fb (s : State) (b : Bool) : (s.setPresent b).fb = s.fb := rfl
@[simp] theorem State.setPresent_keys (s : State) (b : Bool) : (s.setPresent b).keys = s.keys := rfl
@[simp] theorem State.setPresent_keyWait (s : State) (b : Bool) : (s.setPresent b).keyWait = s.keyWait := rfl
@[simp] theorem State.setPresent_fault (s : State) (b : Bool) : (s.setPresent b).fault = s.fault := rfl
@[simp] theorem State.setPresent_tone (s : State) (b : Bool) : (s.setPresent b).tone = s.tone := rfl
@[simp] theorem State.setPresent_present (s : State) (b : Bool) : (s.setPresent b).present = b := rfl
@[simp] theorem State.setPresent_reply (s : State) (b : Bool) : (s.setPresent b).reply = s.reply := rfl
@[simp] theorem State.setPresent_tick (s : State) (b : Bool) : (s.setPresent b).tick = s.tick := rfl
@[simp] theorem State.setPresent_inbox (s : State) (b : Bool) : (s.setPresent b).inbox = s.inbox := rfl
@[simp] theorem State.setPresent_font (s : State) (b : Bool) : (s.setPresent b).font = s.font := rfl
@[simp] theorem State.setPresent_draws (s : State) (b : Bool) : (s.setPresent b).draws = s.draws := rfl
@[simp] theorem State.setPresent_getV (s : State) (b : Bool) (q : Reg) : (s.setPresent b).getV q = s.getV q := rfl
@[simp] theorem State.setPresent_peek (s : State) (b : Bool) (x : Nat) : (s.setPresent b).peek x = s.peek x := rfl

/-! ### `quiet` -/

@[simp] theorem State.quiet_v (s : State) : (s.quiet).v = s.v := rfl
@[simp] theorem State.quiet_index (s : State) : (s.quiet).index = s.index := rfl
@[simp] theorem State.quiet_pc (s : State) : (s.quiet).pc = s.pc := rfl
@[simp] theorem State.quiet_mem (s : State) : (s.quiet).mem = s.mem := rfl
@[simp] theorem State.quiet_stack (s : State) : (s.quiet).stack = s.stack := rfl
@[simp] theorem State.quiet_dt (s : State) : (s.quiet).dt = s.dt := rfl
@[simp] theorem State.quiet_st (s : State) : (s.quiet).st = s.st := rfl
@[simp] theorem State.quiet_fb (s : State) : (s.quiet).fb = s.fb := rfl
@[simp] theorem State.quiet_keys (s : State) : (s.quiet).keys = s.keys := rfl
@[simp] theorem State.quiet_keyWait (s : State) : (s.quiet).keyWait = s.keyWait := rfl
@[simp] theorem State.quiet_fault (s : State) : (s.quiet).fault = s.fault := rfl
@[simp] theorem State.quiet_tone (s : State) : (s.quiet).tone = s.tone := rfl
@[simp] theorem State.quiet_present (s : State) : (s.quiet).present = false := rfl
@[simp] theorem State.quiet_reply (s : State) : (s.quiet).reply = none := rfl
@[simp] theorem State.quiet_tick (s : State) : (s.quiet).tick = s.tick := rfl
@[simp] theorem State.quiet_inbox (s : State) : (s.quiet).inbox = s.inbox := rfl
@[simp] theorem State.quiet_font (s : State) : (s.quiet).font = s.font := rfl
@[simp] theorem State.quiet_draws (s : State) : (s.quiet).draws = s.draws := rfl
@[simp] theorem State.quiet_getV (s : State) (q : Reg) : (s.quiet).getV q = s.getV q := rfl
@[simp] theorem State.quiet_peek (s : State) (x : Nat) : (s.quiet).peek x = s.peek x := rfl

/-! ### `useDraw` -/

@[simp] theorem State.useDraw_v (s : State) : (s.useDraw).v = s.v := rfl
@[simp] theorem State.useDraw_index (s : State) : (s.useDraw).index = s.index := rfl
@[simp] theorem State.useDraw_pc (s : State) : (s.useDraw).pc = s.pc := rfl
@[simp] theorem State.useDraw_mem (s : State) : (s.useDraw).mem = s.mem := rfl
@[simp] theorem State.useDraw_stack (s : State) : (s.useDraw).stack = s.stack := rfl
@[simp] theorem State.useDraw_dt (s : State) : (s.useDraw).dt = s.dt := rfl
@[simp] theorem State.useDraw_st (s : State) : (s.useDraw).st = s.st := rfl
@[simp] theorem State.useDraw_fb (s : State) : (s.useDraw).fb = s.fb := rfl
@[simp] theorem State.useDraw_keys (s : State) : (s.useDraw).keys = s.keys := rfl
@[simp] theorem State.useDraw_keyWait (s : State) : (s.useDraw).keyWait = s.keyWait := rfl
@[simp] theorem State.useDraw_fault (s : State) : (s.useDraw).fault = s.fault := rfl
@[simp] theorem State.useDraw_tone (s : State) : (s.useDraw).tone = s.tone := rfl
@[simp] theorem State.useDraw_present (s : State) : (s.useDraw).present = s.present := rfl
@[simp] theorem State.useDraw_reply (s : State) : (s.useDraw).reply = s.reply := rfl
@[simp] theorem State.useDraw_tick (s : State) : (s.useDraw).tick = s.tick := rfl
@[simp] theorem State.useDraw_inbox (s : State) : (s.useDraw).inbox = s.inbox := rfl
@[simp] theorem State.useDraw_font (s : State) : (s.useDraw).font = s.font := rfl
@[simp] theorem State.useDraw_draws (s : State) : (s.useDraw).draws = s.draws + 1 := rfl
@[simp] theorem State.useDraw_getV (s : State) (q : Reg) : (s.useDraw).getV q = s.getV q := rfl
@[simp] theorem State.useDraw_peek (s : State) (x : Nat) : (s.useDraw).peek x = s.peek x := rfl

/-! ### `raise` -/

@[simp] theorem State.raise_v (s : State) (c : Cause) (a w : Word) : (s.raise c a w).v = s.v := rfl
@[simp] theorem State.raise_index (s : State) (c : Cause) (a w : Word) : (s.raise c a w).index = s.index := rfl
@[simp] theorem State.raise_pc (s : State) (c : Cause) (a w : Word) : (s.raise c a w).pc = s.pc := rfl
@[simp] theorem State.raise_mem (s : State) (c : Cause) (a w : Word) : (s.raise c a w).mem = s.mem := rfl
@[simp] theorem State.raise_stack (s : State) (c : Cause) (a w : Word) : (s.raise c a w).stack = s.stack := rfl
@[simp] theorem State.raise_dt (s : State) (c : Cause) (a w : Word) : (s.raise c a w).dt = s.dt := rfl
@[simp] theorem State.raise_st (s : State) (c : Cause) (a w : Word) : (s.raise c a w).st = s.st := rfl
@[simp] theorem State.raise_fb (s : State) (c : Cause) (a w : Word) : (s.raise c a w).fb = s.fb := rfl
@[simp] theorem State.raise_keys (s : State) (c : Cause) (a w : Word) : (s.raise c a w).keys = s.keys := rfl
@[simp] theorem State.raise_keyWait (s : State) (c : Cause) (a w : Word) : (s.raise c a w).keyWait = s.keyWait := rfl
@[simp] theorem State.raise_fault (s : State) (c : Cause) (a w : Word) : (s.raise c a w).fault = some ⟨c, a, w⟩ := rfl
@[simp] theorem State.raise_tone (s : State) (c : Cause) (a w : Word) : (s.raise c a w).tone = s.tone := rfl
@[simp] theorem State.raise_present (s : State) (c : Cause) (a w : Word) : (s.raise c a w).present = s.present := rfl
@[simp] theorem State.raise_reply (s : State) (c : Cause) (a w : Word) : (s.raise c a w).reply = s.reply := rfl
@[simp] theorem State.raise_tick (s : State) (c : Cause) (a w : Word) : (s.raise c a w).tick = none := rfl
@[simp] theorem State.raise_inbox (s : State) (c : Cause) (a w : Word) : (s.raise c a w).inbox = s.inbox := rfl
@[simp] theorem State.raise_font (s : State) (c : Cause) (a w : Word) : (s.raise c a w).font = s.font := rfl
@[simp] theorem State.raise_draws (s : State) (c : Cause) (a w : Word) : (s.raise c a w).draws = s.draws := rfl
@[simp] theorem State.raise_getV (s : State) (c : Cause) (a w : Word) (q : Reg) : (s.raise c a w).getV q = s.getV q := rfl
@[simp] theorem State.raise_peek (s : State) (c : Cause) (a w : Word) (x : Nat) : (s.raise c a w).peek x = s.peek x := rfl

/-! ### Register reads after register writes -/

@[simp] theorem State.getV_setV_same (s : State) (r : Reg) (b : Byte) : (s.setV r b).getV r = b := by
  simp [State.getV, State.setV]

theorem State.getV_setV (s : State) (r q : Reg) (b : Byte) :
    (s.setV r b).getV q = if q = r then b else s.getV q := by
  by_cases h : q = r
  · simp [h]
  · have : r.val ≠ q.val := fun e => h (Fin.ext e.symm)
    simp [State.getV, State.setV, h, this]

theorem State.getV_setV_other (s : State) {r q : Reg} (b : Byte) (h : q ≠ r) : (s.setV r b).getV q = s.getV q := by
  rw [State.getV_setV, if_neg h]

@[simp] theorem State.getV_setFirstV (s : State) (bs : List Byte) (q : Reg) :
    (s.setFirstV bs).getV q = bs.getD q.val (s.getV q) := by
  simp [State.getV, State.setFirstV]

theorem State.length_firstV (s : State) (n : Nat) (h : n ≤ 16) : (s.firstV n).length = n := by
  simp [State.firstV, h]

theorem State.getElem_firstV (s : State) (n k : Nat) (h : k < (s.firstV n).length) (h16 : k < 16) :
    (s.firstV n)[k] = s.getV ⟨k, h16⟩ := by
  simp [State.firstV, State.getV]

end Sys2Proof.Machine
end

