-- ==== Sys2Proof/Laws/Memory.lean ====
section
/-! SUPPORT. Memory as a canonical list: a read after a write, and every operation keeps the canonical form. -/

namespace Sys2Proof.Machine

/-! ### Reads after writes -/

theorem Memory.lookup_insert (m : Memory) (a b : Nat) (v : Byte) :
    Memory.lookup (Memory.insert m a v) b = if b = a then some v else Memory.lookup m b := by
  induction m with
  | nil => simp [Memory.insert, Memory.lookup]
  | cons c rest ih =>
    obtain ⟨c, w⟩ := c
    simp only [Memory.insert]
    split
    · simp [Memory.lookup]
    · split
      · subst_vars
        simp only [Memory.lookup]
        split <;> rfl
      · simp only [Memory.lookup, ih]
        split <;> split <;> simp_all

theorem Memory.lookup_erase (m : Memory) (a b : Nat) :
    Memory.lookup (Memory.erase m a) b = if b = a then none else Memory.lookup m b := by
  induction m with
  | nil => simp [Memory.erase, Memory.lookup]
  | cons c rest ih =>
    obtain ⟨c, w⟩ := c
    by_cases hc : c = a
    · have he : Memory.erase ((c, w) :: rest) a = Memory.erase rest a := by simp [Memory.erase, hc]
      rw [he, ih]
      subst hc
      by_cases hb : b = c <;> simp [Memory.lookup, hb]
    · have he : Memory.erase ((c, w) :: rest) a = (c, w) :: Memory.erase rest a := by simp [Memory.erase, hc]
      rw [he]
      by_cases hb : b = c
      · subst hb
        simp [Memory.lookup, hc]
      · simp [Memory.lookup, hb, ih]

/-- A read after a write: the written byte at its address, the former byte everywhere else. -/
theorem Memory.read_write (font : Font) (m : Memory) (a b : Nat) (v : Byte) :
    Memory.read font (Memory.write font m a v) b = if b = a then v else Memory.read font m b := by
  unfold Memory.read Memory.write
  by_cases hv : v = unlistedByte font a
  · rw [if_pos hv, Memory.lookup_erase]
    by_cases hb : b = a
    · subst hb
      simp [hv]
    · simp [hb]
  · rw [if_neg hv, Memory.lookup_insert]
    by_cases hb : b = a <;> simp [hb]

@[simp] theorem Memory.read_nil (font : Font) (a : Nat) : Memory.read font [] a = unlistedByte font a := rfl

/-- A read after storing bytes at rising addresses. -/
theorem Memory.read_writeAll (font : Font) (bs : List Byte) (m : Memory) (a b : Nat) :
    Memory.read font (Memory.writeAll font m a bs) b =
      if h : a ≤ b ∧ b < a + bs.length then bs[b - a]'(by omega) else Memory.read font m b := by
  induction bs generalizing m a with
  | nil =>
    have h : ¬(a ≤ b ∧ b < a + ([] : List Byte).length) := by simp
    rw [dif_neg h]
    rfl
  | cons v vs ih =>
    simp only [Memory.writeAll, ih, Memory.read_write, List.length_cons]
    by_cases hb : b = a
    · subst hb
      have h1 : ¬(b + 1 ≤ b ∧ b < b + 1 + vs.length) := by omega
      have h2 : b ≤ b ∧ b < b + (vs.length + 1) := by omega
      rw [dif_neg h1, dif_pos h2, if_pos rfl]
      simp
    · by_cases h : a + 1 ≤ b ∧ b < a + 1 + vs.length
      · have h2 : a ≤ b ∧ b < a + (vs.length + 1) := by omega
        have h3 : b - a = (b - (a + 1)) + 1 := by omega
        rw [dif_pos h, dif_pos h2]
        simp [h3]
      · have h2 : ¬(a ≤ b ∧ b < a + (vs.length + 1)) := by omega
        rw [dif_neg h, dif_neg h2, if_neg hb]

/-! ### The canonical form is kept -/

theorem Memory.wf_nil (font : Font) : Memory.wf font [] := by simp [Memory.wf]

theorem Memory.wf_erase {font : Font} {m : Memory} (h : Memory.wf font m) (a : Nat) :
    Memory.wf font (Memory.erase m a) :=
  ⟨h.1.filter _, fun c hc => h.2 c (List.mem_filter.mp hc).1⟩

theorem Memory.mem_insert {m : Memory} {a : Nat} {v : Byte} {c : Host.Cell} (h : c ∈ Memory.insert m a v) :
    c = (a, v) ∨ c ∈ m := by
  induction m with
  | nil => simpa [Memory.insert] using h
  | cons d rest ih =>
    obtain ⟨b, w⟩ := d
    simp only [Memory.insert] at h
    split at h
    · simpa using h
    · split at h
      · rcases List.mem_cons.mp h with h | h
        · exact .inl h
        · exact .inr (List.mem_cons_of_mem _ h)
      · rcases List.mem_cons.mp h with h | h
        · exact .inr (h ▸ List.mem_cons_self)
        · rcases ih h with h | h
          · exact .inl h
          · exact .inr (List.mem_cons_of_mem _ h)

theorem Memory.pairwise_insert {m : Memory} (h : m.Pairwise (fun c d => c.1 < d.1)) (a : Nat) (v : Byte) :
    (Memory.insert m a v).Pairwise (fun c d => c.1 < d.1) := by
  induction m with
  | nil => simp [Memory.insert]
  | cons d rest ih =>
    obtain ⟨b, w⟩ := d
    obtain ⟨hb, hr⟩ := List.pairwise_cons.mp h
    simp only [Memory.insert]
    split
    · rename_i hab
      refine List.pairwise_cons.mpr ⟨fun c hc => ?_, h⟩
      rcases List.mem_cons.mp hc with rfl | hc
      · exact hab
      · exact Nat.lt_trans hab (hb c hc)
    · split
      · subst_vars
        exact List.pairwise_cons.mpr ⟨hb, hr⟩
      · refine List.pairwise_cons.mpr ⟨fun c hc => ?_, ih hr⟩
        rcases Memory.mem_insert hc with rfl | hc
        · show b < a
          omega
        · exact hb c hc

theorem Memory.wf_insert {font : Font} {m : Memory} (h : Memory.wf font m) {a : Nat} (ha : a < Config.memSize)
    {v : Byte} (hv : v ≠ unlistedByte font a) : Memory.wf font (Memory.insert m a v) := by
  refine ⟨Memory.pairwise_insert h.1 a v, fun c hc => ?_⟩
  rcases Memory.mem_insert hc with rfl | hc
  · exact ⟨ha, hv⟩
  · exact h.2 c hc

theorem Memory.wf_write {font : Font} {m : Memory} (h : Memory.wf font m) {a : Nat} (ha : a < Config.memSize)
    (v : Byte) : Memory.wf font (Memory.write font m a v) := by
  unfold Memory.write
  split
  · exact Memory.wf_erase h a
  · exact Memory.wf_insert h ha ‹_›

theorem Memory.wf_writeAll {font : Font} (bs : List Byte) {m : Memory} (h : Memory.wf font m) {a : Nat}
    (ha : a + bs.length ≤ Config.memSize) : Memory.wf font (Memory.writeAll font m a bs) := by
  induction bs generalizing m a with
  | nil => exact h
  | cons v vs ih =>
    simp only [List.length_cons] at ha
    exact ih (Memory.wf_write h (by omega) v) (by omega)

theorem State.reset_mem_wf : Memory.wf State.reset.font State.reset.mem := Memory.wf_nil _

end Sys2Proof.Machine
end

