-- ==== Sys2Proof/Laws/Ops.lean ====
section
/-! SUPPORT. One lemma per shared operation that says everything it can do. -/

namespace Sys2Proof.Machine

/-! ### Memory accesses -/

theorem State.memRead_eq (s : State) (a : Nat) :
    s.memRead a = if a < 4096 then some (s.peek a) else none := rfl

theorem State.memWrite_eq (s : State) (a : Nat) (v : Byte) :
    s.memWrite a v = if a < 4096 then some (s.setMem (Memory.write s.font s.mem a v)) else none := rfl

/-- Reading `n` bytes answers exactly when no address is above 0xFFF, and then the bytes memory holds. -/
theorem State.loadBytes_eq (s : State) (n a : Nat) :
    s.loadBytes a n =
      if n = 0 ∨ a + n ≤ 4096 then some ((List.range n).map (fun k => s.peek (a + k))) else none := by
  induction n generalizing a with
  | zero => simp [State.loadBytes]
  | succ n ih =>
    simp only [State.loadBytes, ih, State.memRead_eq]
    by_cases h : a + (n + 1) ≤ 4096
    · have h1 : a < 4096 := by omega
      have h2 : n = 0 ∨ a + 1 + n ≤ 4096 := by omega
      rw [if_pos h1, if_pos h2, if_pos (Or.inr h), List.range_succ_eq_map]
      simp [Function.comp_def, Nat.add_assoc, Nat.add_comm 1]
    · have h3 : ¬(n + 1 = 0 ∨ a + (n + 1) ≤ 4096) := by omega
      rw [if_neg h3]
      by_cases h1 : a < 4096
      · have h2 : ¬(n = 0 ∨ a + 1 + n ≤ 4096) := by omega
        rw [if_pos h1, if_neg h2]
      · rw [if_neg h1]

/-- Storing bytes answers exactly when no address is above 0xFFF, and then only memory differs. -/
theorem State.storeBytes_eq (bs : List Byte) (s : State) (a : Nat) :
    s.storeBytes a bs =
      if bs = [] ∨ a + bs.length ≤ 4096 then some (s.setMem (Memory.writeAll s.font s.mem a bs)) else none := by
  induction bs generalizing s a with
  | nil => simp [State.storeBytes, Memory.writeAll, State.setMem]
  | cons b bs ih =>
    simp only [State.storeBytes, State.memWrite_eq, List.length_cons]
    by_cases h1 : a < 4096
    · rw [if_pos h1]
      show State.storeBytes _ (a + 1) bs = _
      rw [ih]
      by_cases h : a + (bs.length + 1) ≤ 4096
      · have h2 : bs = [] ∨ a + 1 + bs.length ≤ 4096 := by omega
        rw [if_pos h2, if_pos (Or.inr h)]
        rfl
      · have hb : bs ≠ [] := by
          rintro rfl
          exact h (by simpa using h1)
        have h2 : ¬(bs = [] ∨ a + 1 + bs.length ≤ 4096) := by
          rintro (e | e)
          · exact hb e
          · omega
        have h3 : ¬(b :: bs = [] ∨ a + (bs.length + 1) ≤ 4096) := by simp; omega
        rw [if_neg h2, if_neg h3]
    · have h3 : ¬(b :: bs = [] ∨ a + (bs.length + 1) ≤ 4096) := by simp; omega
      rw [if_neg h1, if_neg h3]

/-! ### The call stack -/

theorem State.push_eq (s : State) (v : Word) :
    s.push v = if s.stack.length < 16 then some (s.setStack (s.stack ++ [v])) else none := rfl

theorem State.pop_append (s : State) {l : List Word} {v : Word} (h : s.stack = l ++ [v]) :
    s.pop = some (v, s.setStack l) := by
  simp [State.pop, h]

theorem State.pop_nil (s : State) (h : s.stack = []) : s.pop = none := by simp [State.pop, h]

/-- What pop can answer. -/
theorem State.pop_cases {s : State} {o : Option (Word × State)} (h : s.pop = o) :
    (s.stack = [] ∧ o = none) ∨ ∃ l v, s.stack = l ++ [v] ∧ o = some (v, s.setStack l) := by
  rcases List.eq_nil_or_concat s.stack with hs | ⟨l, v, hs⟩
  · exact .inl ⟨hs, by rw [← h, State.pop_nil s hs]⟩
  · rw [List.concat_eq_append] at hs
    exact .inr ⟨l, v, hs, by rw [← h, State.pop_append s hs]⟩

/-! ### The fault outputs -/

/-- The codes of the run-time faults are 1, 2 and 3, never the code 0 of no fault. -/
theorem causeCode_pos (c : Cause) : 0 < causeCode c := by cases c <;> decide

/-- Different run-time faults have different codes. -/
theorem causeCode_inj {c d : Cause} (h : causeCode c = causeCode d) : c = d := by
  cases c <;> cases d <;> first | rfl | cases h

@[simp] theorem State.faultCode_raise (s : State) (c : Cause) (a w : Word) :
    (s.raise c a w).faultCode = causeCode c := rfl

@[simp] theorem State.faultCode_raiseIn (s : State) (c : Cause) (i : Instr) :
    (s.raiseIn c i).faultCode = causeCode c := rfl

/-- The code is 0 exactly when the machine is not halted. -/
theorem State.faultCode_eq_zero (s : State) : s.faultCode = 0 ↔ s.fault = none := by
  unfold State.faultCode
  cases s.fault with
  | none => simp
  | some f => simp [(causeCode_pos f.cause).ne']

@[simp] theorem State.replyCode_loadOverflow (s : State) : (s.setReply (some .loadOverflow)).replyCode = 4 := rfl

@[simp] theorem State.replyCode_ok (s : State) : (s.setReply (some .ok)).replyCode = 0 := rfl

/-! ### Skips -/

@[simp] theorem State.skipIf_true (s : State) : s.skipIf true = s.setPc (s.pc + 2) := rfl

@[simp] theorem State.skipIf_false (s : State) : s.skipIf false = s := rfl

theorem State.skipIf_eq (s : State) (c : Bool) : s.skipIf c = s.setPc (if c then s.pc + 2 else s.pc) := by
  cases c <;> rfl

/-! ### The framebuffer -/

@[simp] theorem pixel_toggle_same (fb : Screen) (p : Pixel) : pixel (toggle fb p) p = !pixel fb p := by
  simp [pixel, toggle]

theorem pixel_toggle_other (fb : Screen) {p q : Pixel} (h : q ≠ p) : pixel (toggle fb p) q = pixel fb q := by
  obtain ⟨px, py⟩ := p
  obtain ⟨qx, qy⟩ := q
  by_cases hy : qy = py
  · subst hy
    have hx : px.val ≠ qx.val := by
      intro e
      exact h (by rw [Fin.ext e])
    simp [pixel, toggle, hx]
  · have hy' : py.val ≠ qy.val := fun e => hy (Fin.ext e.symm)
    simp [pixel, toggle, hy']

theorem pixel_toggle (fb : Screen) (p q : Pixel) :
    pixel (toggle fb p) q = (pixel fb q ^^ decide (q = p)) := by
  by_cases h : q = p
  · subst h
    simp
  · rw [pixel_toggle_other fb h]
    simp [h]

@[simp] theorem pixel_blankScreen (p : Pixel) : pixel blankScreen p = false := by
  simp [pixel, blankScreen]

/-- Two screens with the same pixels are the same screen. -/
theorem screen_ext {f g : Screen} (h : ∀ p, pixel f p = pixel g p) : f = g := by
  ext y hy x hx
  have := h (⟨x, hx⟩, ⟨y, hy⟩)
  simpa [pixel] using this

end Sys2Proof.Machine
end

