-- ==== Sys2Proof/Laws/Display.lean ====
section
/-! SUPPORT. What drawing does: which pixels a sprite inverts, that it inverts each once, and the collision flag
(`44_display.md` R171, R173). -/

namespace Sys2Proof.Machine

/-- Toggling different pixels inverts exactly those. -/
theorem pixel_toggleAll {ps : List Pixel} (h : ps.Nodup) (fb : Screen) (p : Pixel) :
    pixel (toggleAll fb ps) p = (pixel fb p ^^ decide (p ∈ ps)) := by
  induction ps generalizing fb with
  | nil => simp [toggleAll]
  | cons q qs ih =>
    obtain ⟨hq, hqs⟩ := List.nodup_cons.mp h
    simp only [toggleAll, ih hqs, pixel_toggle, List.mem_cons]
    by_cases e : p = q
    · subst e
      simp [hq]
    · simp [e]

/-- Toggling different pixels collides exactly where one of them was set. -/
theorem collides_eq_any {ps : List Pixel} (h : ps.Nodup) (fb : Screen) :
    collides fb ps = ps.any (pixel fb) := by
  induction ps generalizing fb with
  | nil => rfl
  | cons q qs ih =>
    obtain ⟨hq, hqs⟩ := List.nodup_cons.mp h
    simp only [collides, ih hqs, List.any_cons]
    congr 1
    rw [Bool.eq_iff_iff]
    simp only [List.any_eq_true]
    constructor
    · rintro ⟨p, hp, e⟩
      have hne : p ≠ q := fun e' => hq (e' ▸ hp)
      exact ⟨p, hp, by rwa [pixel_toggle_other fb hne] at e⟩
    · rintro ⟨p, hp, e⟩
      have hne : p ≠ q := fun e' => hq (e' ▸ hp)
      exact ⟨p, hp, by rwa [pixel_toggle_other fb hne]⟩

theorem mem_litColumns {b : Byte} {col : Nat} : col ∈ litColumns b ↔ col < 8 ∧ b.getLsbD (7 - col) = true := by
  simp [litColumns]

theorem mem_rowPixels {x0 y0 b : Byte} {row : Nat} {p : Pixel} :
    p ∈ rowPixels x0 y0 row b ↔ ∃ col, col < 8 ∧ b.getLsbD (7 - col) = true ∧ p = pixelAt x0 y0 col row := by
  simp only [rowPixels, List.mem_map, mem_litColumns]
  constructor
  · rintro ⟨col, ⟨h, hb⟩, rfl⟩
    exact ⟨col, h, hb, rfl⟩
  · rintro ⟨col, h, hb, rfl⟩
    exact ⟨col, ⟨h, hb⟩, rfl⟩

/-- The pixels a sprite inverts: those under a 1 bit of one of its rows. -/
theorem mem_spritePixels {x0 y0 : Byte} {bs : List Byte} {row : Nat} {p : Pixel} :
    p ∈ spritePixels x0 y0 row bs ↔
      ∃ k col, k < bs.length ∧ col < 8 ∧ (bs.getD k 0).getLsbD (7 - col) = true ∧
        p = pixelAt x0 y0 col (row + k) := by
  induction bs generalizing row with
  | nil => simp [spritePixels]
  | cons b bs ih =>
    simp only [spritePixels, List.mem_append, mem_rowPixels, ih]
    constructor
    · rintro (⟨col, h, hb, rfl⟩ | ⟨k, col, hk, h, hb, rfl⟩)
      · exact ⟨0, col, by simp, h, by simpa using hb, rfl⟩
      · exact ⟨k + 1, col, by simpa using hk, h, by simpa using hb, by rw [Nat.add_assoc, Nat.add_comm 1]⟩
    · rintro ⟨k, col, hk, h, hb, rfl⟩
      cases k with
      | zero => exact .inl ⟨col, h, by simpa using hb, rfl⟩
      | succ k =>
        exact .inr ⟨k, col, by simpa using hk, h, by simpa using hb, by rw [Nat.add_assoc, Nat.add_comm 1]⟩

theorem pixelAt_inj {x0 y0 : Byte} {c d row row' : Nat} (hc : c < 8) (hd : d < 8)
    (hr : row < row' + 32) (hr' : row' < row + 32) (e : pixelAt x0 y0 c row = pixelAt x0 y0 d row') :
    c = d ∧ row = row' := by
  simp only [pixelAt, Prod.mk.injEq, Fin.mk.injEq] at e
  omega

theorem nodup_rowPixels (x0 y0 b : Byte) (row : Nat) : (rowPixels x0 y0 row b).Nodup := by
  refine List.Nodup.map_on ?_ (List.Nodup.filter _ List.nodup_range)
  intro c hc d hd e
  exact (pixelAt_inj (mem_litColumns.mp hc).1 (mem_litColumns.mp hd).1 (by omega) (by omega) e).1

/-- A sprite of at most 32 rows covers each pixel at most once (R171 (c)). -/
theorem nodup_spritePixels (x0 y0 : Byte) (bs : List Byte) (row : Nat) (h : bs.length ≤ 32) :
    (spritePixels x0 y0 row bs).Nodup := by
  induction bs generalizing row with
  | nil => simp [spritePixels]
  | cons b bs ih =>
    simp only [List.length_cons] at h
    refine List.nodup_append'.mpr ⟨nodup_rowPixels x0 y0 b row, ih (row + 1) (by omega), ?_⟩
    intro p hp hq
    obtain ⟨c, hc, -, rfl⟩ := mem_rowPixels.mp hp
    obtain ⟨k, d, hk, hd, -, e⟩ := mem_spritePixels.mp hq
    have := (pixelAt_inj hc hd (by omega) (by omega) e).2
    omega

/-! ### The state after a draw -/

theorem State.drawSprite_fb (s : State) (x0 y0 : Byte) (bs : List Byte) :
    (s.drawSprite x0 y0 bs).fb = toggleAll s.fb (spritePixels x0 y0 0 bs) := rfl

theorem State.drawSprite_VF (s : State) (x0 y0 : Byte) (bs : List Byte) :
    (s.drawSprite x0 y0 bs).getV VF = flagByte (collides s.fb (spritePixels x0 y0 0 bs)) := by
  simp [State.drawSprite]

theorem State.drawSprite_getV_other (s : State) (x0 y0 : Byte) (bs : List Byte) {r : Reg} (h : r ≠ VF) :
    (s.drawSprite x0 y0 bs).getV r = s.getV r := by
  simp [State.drawSprite, State.getV_setV_other _ _ h]

@[simp] theorem State.drawSprite_peek (s : State) (x0 y0 : Byte) (bs : List Byte) (a : Nat) :
    (s.drawSprite x0 y0 bs).peek a = s.peek a := rfl

end Sys2Proof.Machine
end

