-- ==== Sys2Proof/Laws/Exec.lean ====
section
/-! SUPPORT. Each meaning whose outcome depends on the state, as one equation, and what one step of the machine
can be. -/

namespace Sys2Proof.Machine

/-! ### Meanings that may stop or fault -/

theorem State.storeAtIndex_eq (s : State) {bs : List Byte} (h : bs ≠ []) :
    s.storeAtIndex bs =
      if s.index.toNat + bs.length ≤ 4096 then
        .next (s.setMem (Memory.writeAll s.font s.mem s.index.toNat bs))
      else .fault .memOutOfRange := by
  unfold State.storeAtIndex
  rw [State.storeBytes_eq]
  by_cases hb : s.index.toNat + bs.length ≤ 4096 <;> simp [effAddr, h, hb]

theorem execLdB_eq (x : Reg) (s : State) :
    execLdB x s =
      if s.index.toNat + 3 ≤ 4096 then
        .next (s.setMem (Memory.writeAll s.font s.mem s.index.toNat (decimalDigits (s.getV x))))
      else .fault .memOutOfRange :=
  State.storeAtIndex_eq s (List.cons_ne_nil _ _)

theorem execStoreRegs_eq (x : Reg) (s : State) :
    execStoreRegs x s =
      if s.index.toNat + (x.val + 1) ≤ 4096 then
        .next (s.setMem (Memory.writeAll s.font s.mem s.index.toNat (s.firstV (x.val + 1))))
      else .fault .memOutOfRange := by
  have hl : (s.firstV (x.val + 1)).length = x.val + 1 := State.length_firstV s _ (by omega)
  have h : s.firstV (x.val + 1) ≠ [] := by
    intro e
    rw [e] at hl
    simp at hl
  unfold execStoreRegs
  rw [State.storeAtIndex_eq s h, hl]

theorem execLoadRegs_eq (x : Reg) (s : State) :
    execLoadRegs x s =
      if s.index.toNat + (x.val + 1) ≤ 4096 then
        .next (s.setFirstV ((List.range (x.val + 1)).map (fun k => s.peek (s.index.toNat + k))))
      else .fault .memOutOfRange := by
  unfold execLoadRegs
  rw [State.loadBytes_eq]
  by_cases h : s.index.toNat + (x.val + 1) ≤ 4096 <;> simp [effAddr, h]

/-- A coordinate as DXYN reads it, after VF is cleared. -/
theorem State.getV_cleared (s : State) (r : Reg) : (s.setV VF 0).getV r = if r = VF then 0 else s.getV r :=
  State.getV_setV s VF r 0

theorem execDrw_eq (x y : Reg) (n : Nibble) (s : State) :
    execDrw x y n s =
      if n.toNat = 0 ∨ s.index.toNat + n.toNat ≤ 4096 then
        .next ((s.setV VF 0).drawSprite ((s.setV VF 0).getV x) ((s.setV VF 0).getV y)
          ((List.range n.toNat).map (fun k => s.peek (s.index.toNat + k))))
      else .fault .memOutOfRange := by
  unfold execDrw
  rw [State.loadBytes_eq]
  by_cases h : n.toNat = 0 ∨ s.index.toNat + n.toNat ≤ 4096 <;> simp [effAddr, h]

theorem State.keyFlag_eq (s : State) (k : Byte) (h : k.toNat < 16) : s.keyFlag k = some s.keys[k.toNat] := by
  simp [State.keyFlag, h]

theorem State.keyFlag_none (s : State) (k : Byte) (h : 16 ≤ k.toNat) : s.keyFlag k = none := by
  simp [State.keyFlag, Nat.not_lt.mpr h]

theorem execCall_eq (nnn : Addr) (s : State) :
    execCall nnn s =
      if s.stack.length < 16 then .next ((s.setStack (s.stack ++ [s.pc])).setPc (zextAddr nnn))
      else .next (s.raiseIn .stackOverflow (.call nnn)) := by
  unfold execCall
  rw [State.push_eq]
  by_cases h : s.stack.length < 16 <;> simp [h]

/-- No meaning refuses. -/
theorem exec_ne_refused (i : Instr) (s : State) (r : Refusal) : exec i s ≠ .refused r := by
  cases i with
  | ret => simp only [exec, execRet]; split <;> simp
  | call => simp only [exec, execCall_eq]; split <;> simp
  | ldB => simp only [exec, execLdB_eq]; split <;> simp
  | storeRegs => simp only [exec, execStoreRegs_eq]; split <;> simp
  | loadRegs => simp only [exec, execLoadRegs_eq]; split <;> simp
  | drw => simp only [exec, execDrw_eq]; split <;> simp
  | skp => simp only [exec, execSkp]; split <;> simp
  | sknp => simp only [exec, execSknp]; split <;> simp
  | _ => exact nofun

/-! ### A run of the core, one step at a time -/

theorem core_run_next {s s' : State} (k : Nat) (h : step s = .next s') :
    Sys2Proof.core.run (k + 1) s = Sys2Proof.core.run k s' := by
  have hc : Sys2Proof.core.step s = .next s' := h
  simp only [Host.Core.run, hc]

theorem core_run_fault {s : State} {f : Fault} (k : Nat) (h : step s = .fault f) :
    Sys2Proof.core.run (k + 1) s = .fault f := by
  have hc : Sys2Proof.core.step s = .fault f := h
  simp only [Host.Core.run, hc]

/-! ### What every instruction keeps -/

/-- Whatever instruction runs: the font and canonical memory are kept, the stack stays within its 16 entries, and
either the fault latch and the tick are as before or the instruction did nothing but raise. -/
theorem exec_next_cases {i : Instr} {s t : State} (h : exec i s = .next t) :
    t.font = s.font ∧ (Memory.wf s.font s.mem → Memory.wf t.font t.mem) ∧
      (s.stack.length ≤ 16 → t.stack.length ≤ 16) ∧
      ((t.fault = s.fault ∧ t.tick = s.tick) ∨ ∃ c, t = s.raiseIn c i) := by
  cases i with
  | ret =>
    simp only [exec, execRet] at h
    split at h
    · rename_i v s' hp
      rcases State.pop_cases hp with ⟨_, h'⟩ | ⟨l, v', hs, h'⟩
      · cases h'
      · cases h'
        cases h
        simp [hs]
        omega
    · cases h
      exact ⟨rfl, id, id, .inr ⟨_, rfl⟩⟩
  | call nnn =>
    simp only [exec, execCall_eq] at h
    split at h <;> cases h
    · simp
      omega
    · exact ⟨rfl, id, id, .inr ⟨_, rfl⟩⟩
  | ldB x =>
    simp only [exec, execLdB_eq] at h
    split at h <;> cases h
    exact ⟨rfl, fun hw => Memory.wf_writeAll _ hw ‹_›, id, .inl ⟨rfl, rfl⟩⟩
  | storeRegs x =>
    simp only [exec, execStoreRegs_eq] at h
    split at h <;> cases h
    refine ⟨rfl, fun hw => Memory.wf_writeAll _ hw ?_, id, .inl ⟨rfl, rfl⟩⟩
    rwa [State.length_firstV _ _ (by omega)]
  | loadRegs x =>
    simp only [exec, execLoadRegs_eq] at h
    split at h <;> cases h
    simp
  | drw x y n =>
    simp only [exec, execDrw_eq] at h
    split at h <;> cases h
    simp [State.drawSprite]
  | skp x =>
    simp only [exec, execSkp] at h
    split at h <;> cases h
    simp [State.skipIf_eq]
  | sknp x =>
    simp only [exec, execSknp] at h
    split at h <;> cases h
    simp [State.skipIf_eq]
  | _ =>
    cases h
    simp [State.withBorrowFlag, State.skipIf_eq]

/-! ### One step -/

/-- step() of R92: what one instruction cycle can be. -/
theorem cpuStep_cases {k : Nat} {s : State} {o : Host.Outcome State Fault Refusal} (h : cpuStep k s = o) :
    (s.fetchWord = none ∧ o = .fault .fetchOutOfRange) ∨
    (∃ w i, s.fetchWord = some w ∧ decodeWord w = .ok i ∧ o = exec i (s.advance k)) ∨
    (∃ w e, s.fetchWord = some w ∧ decodeWord w = .error e ∧
      o = .next ((s.advance k).raise .illegalOpcode s.pc w)) := by
  unfold cpuStep at h
  split at h
  · exact .inl ⟨‹_›, h.symm⟩
  · split at h
    · exact .inr (.inl ⟨_, _, ‹_›, ‹_›, h.symm⟩)
    · exact .inr (.inr ⟨_, _, ‹_›, ‹_›, h.symm⟩)

/-- What one step of the machine can be: waiting or taking a host event, a halted machine leaving its tick, the
end of a tick, or one instruction cycle. -/
theorem step_cases {s : State} {o : Host.Outcome State Fault Refusal} (h : step s = o) :
    (s.tick = none ∧ o = .next (hostStep s.quiet)) ∨
    (∃ k, s.tick = some k ∧ s.fault ≠ none ∧ o = .next (s.quiet.setTick none)) ∨
    (∃ k, s.tick = some k ∧ s.fault = none ∧ (k = 0 ∨ s.keyWait ≠ none) ∧ o = .next (endTick s.quiet)) ∨
    (∃ k, s.tick = some (k + 1) ∧ s.keyWait = none ∧ s.fault = none ∧ o = cpuStep k s.quiet) := by
  unfold step machineStep at h
  split at h
  · exact .inl ⟨‹_›, h.symm⟩
  · rename_i k hk
    by_cases hf : s.fault = none
    · rw [if_neg (by simp [hf])] at h
      cases k with
      | zero => exact .inr (.inr (.inl ⟨0, hk, hf, .inl rfl, h.symm⟩))
      | succ k =>
        by_cases hw : s.keyWait = none
        · simp only [tickStep, State.quiet_keyWait, hw, Option.isSome_none] at h
          exact .inr (.inr (.inr ⟨k, hk, hw, hf, h.symm⟩))
        · have hs : s.quiet.keyWait.isSome = true := by simpa [Option.isSome_iff_ne_none] using hw
          simp only [tickStep, hs] at h
          exact .inr (.inr (.inl ⟨k + 1, hk, hf, .inr hw, h.symm⟩))
    · rw [if_pos (by simpa [Option.isSome_iff_ne_none] using hf)] at h
      exact .inr (.inl ⟨k, hk, hf, h.symm⟩)

/-- What a step between ticks leaves: the host's next event applied, or nothing. -/
theorem hostStep_cases (s : State) :
    (s.inbox = [] ∧ hostStep s = s) ∨
    ∃ e rest, s.inbox = e :: rest ∧ hostStep s = applyEvent e (s.setInbox rest) := by
  unfold hostStep
  cases h : s.inbox with
  | nil => exact .inl ⟨rfl, rfl⟩
  | cons e rest => exact .inr ⟨e, rest, rfl, rfl⟩

end Sys2Proof.Machine
end

