-- ==== Sys2Proof/Laws/Cycle.lean ====
section
/-! SUPPORT. What the end of a tick and the host's events leave of each part of the state. -/

namespace Sys2Proof.Machine

/-! ### The end of a tick -/

theorem timerPhase_paused {s : State} (h : s.keyWait ≠ none) : timerPhase s = s := by
  rw [timerPhase, if_pos (by simpa [Option.isSome_iff_ne_none] using h)]

theorem timerPhase_running {s : State} (h : s.keyWait = none) :
    timerPhase s = (s.setDt (countDown s.dt)).setSt (countDown s.st) := by
  rw [timerPhase, if_neg (by simp [h])]

/-- A timer counts down by one and stops at 0 (`40_instruction_cycle.md` R93). -/
theorem toNat_countDown (b : Byte) : (countDown b).toNat = b.toNat - 1 := by
  unfold countDown
  split
  · subst_vars
    rfl
  · rename_i h
    have : b.toNat ≠ 0 := fun e => h (BitVec.eq_of_toNat_eq e)
    have hle : (1 : Byte) ≤ b := by
      rw [BitVec.le_def]
      show 1 ≤ b.toNat
      omega
    rw [BitVec.toNat_sub_of_le hle]
    rfl

theorem endTick_dt (s : State) : (endTick s).dt = if s.keyWait = none then countDown s.dt else s.dt := by
  by_cases h : s.keyWait = none
  · simp [endTick, outputPhase, timerPhase_running h, h]
  · simp [endTick, outputPhase, timerPhase_paused h, h]

theorem endTick_st (s : State) : (endTick s).st = if s.keyWait = none then countDown s.st else s.st := by
  by_cases h : s.keyWait = none
  · simp [endTick, outputPhase, timerPhase_running h, h]
  · simp [endTick, outputPhase, timerPhase_paused h, h]

theorem endTick_tone (s : State) : (endTick s).tone = decide (0 < (endTick s).st.toNat) := rfl

@[simp] theorem endTick_present (s : State) : (endTick s).present = true := rfl

@[simp] theorem endTick_tick (s : State) : (endTick s).tick = none := rfl

@[simp] theorem endTick_v (s : State) : (endTick s).v = s.v := by
  by_cases h : s.keyWait = none
  · simp [endTick, outputPhase, timerPhase_running h]
  · simp [endTick, outputPhase, timerPhase_paused h]

@[simp] theorem endTick_index (s : State) : (endTick s).index = s.index := by
  by_cases h : s.keyWait = none
  · simp [endTick, outputPhase, timerPhase_running h]
  · simp [endTick, outputPhase, timerPhase_paused h]

@[simp] theorem endTick_pc (s : State) : (endTick s).pc = s.pc := by
  by_cases h : s.keyWait = none
  · simp [endTick, outputPhase, timerPhase_running h]
  · simp [endTick, outputPhase, timerPhase_paused h]

@[simp] theorem endTick_mem (s : State) : (endTick s).mem = s.mem := by
  by_cases h : s.keyWait = none
  · simp [endTick, outputPhase, timerPhase_running h]
  · simp [endTick, outputPhase, timerPhase_paused h]

@[simp] theorem endTick_stack (s : State) : (endTick s).stack = s.stack := by
  by_cases h : s.keyWait = none
  · simp [endTick, outputPhase, timerPhase_running h]
  · simp [endTick, outputPhase, timerPhase_paused h]

@[simp] theorem endTick_fb (s : State) : (endTick s).fb = s.fb := by
  by_cases h : s.keyWait = none
  · simp [endTick, outputPhase, timerPhase_running h]
  · simp [endTick, outputPhase, timerPhase_paused h]

@[simp] theorem endTick_keys (s : State) : (endTick s).keys = s.keys := by
  by_cases h : s.keyWait = none
  · simp [endTick, outputPhase, timerPhase_running h]
  · simp [endTick, outputPhase, timerPhase_paused h]

@[simp] theorem endTick_keyWait (s : State) : (endTick s).keyWait = s.keyWait := by
  by_cases h : s.keyWait = none
  · simp [endTick, outputPhase, timerPhase_running h]
  · simp [endTick, outputPhase, timerPhase_paused h]

@[simp] theorem endTick_fault (s : State) : (endTick s).fault = s.fault := by
  by_cases h : s.keyWait = none
  · simp [endTick, outputPhase, timerPhase_running h]
  · simp [endTick, outputPhase, timerPhase_paused h]

@[simp] theorem endTick_reply (s : State) : (endTick s).reply = s.reply := by
  by_cases h : s.keyWait = none
  · simp [endTick, outputPhase, timerPhase_running h]
  · simp [endTick, outputPhase, timerPhase_paused h]

@[simp] theorem endTick_inbox (s : State) : (endTick s).inbox = s.inbox := by
  by_cases h : s.keyWait = none
  · simp [endTick, outputPhase, timerPhase_running h]
  · simp [endTick, outputPhase, timerPhase_paused h]

@[simp] theorem endTick_font (s : State) : (endTick s).font = s.font := by
  by_cases h : s.keyWait = none
  · simp [endTick, outputPhase, timerPhase_running h]
  · simp [endTick, outputPhase, timerPhase_paused h]

@[simp] theorem endTick_draws (s : State) : (endTick s).draws = s.draws := by
  by_cases h : s.keyWait = none
  · simp [endTick, outputPhase, timerPhase_running h]
  · simp [endTick, outputPhase, timerPhase_paused h]

@[simp] theorem endTick_getV (s : State) (r : Reg) : (endTick s).getV r = s.getV r := by
  simp [State.getV]

@[simp] theorem endTick_peek (s : State) (a : Nat) : (endTick s).peek a = s.peek a := by
  simp [State.peek]

/-! ### Host events -/

/-- A step between ticks with an event to come takes it. -/
theorem step_event {s : State} {e : Event} {rest : List Event} (ht : s.tick = none) (hi : s.inbox = e :: rest) :
    step s = .next (applyEvent e (s.quiet.setInbox rest)) := by
  simp [step, machineStep, ht, hostStep, hi]

theorem fulfilKeyWait_pending {s : State} {r : Reg} (h : s.keyWait = some r) (code : Key) :
    s.fulfilKeyWait code = (s.setV r (keyByte code)).setKeyWait none := by
  simp [State.fulfilKeyWait, h]

theorem fulfilKeyWait_none {s : State} (h : s.keyWait = none) (code : Key) : s.fulfilKeyWait code = s := by
  simp [State.fulfilKeyWait, h]

theorem toNat_keyByte (code : Key) : (keyByte code).toNat = code.val := by
  simp only [keyByte, BitVec.toNat_ofNat]
  omega

theorem eventLoad_fits {bytes : List Byte} (h : bytes.length ≤ 3584) (s : State) :
    eventLoad bytes s = (s.setMem (Memory.writeAll s.font s.mem 0x200 bytes)).setReply (some .ok) := by
  have : ¬ (Config.memSize < bytes.length + Config.progBase) := by
    simp only [Config.memSize, Config.progBase]
    omega
  rw [eventLoad, if_neg this]
  rfl

theorem eventLoad_overflow {bytes : List Byte} (h : 3584 < bytes.length) (s : State) :
    eventLoad bytes s = s.setReply (some .loadOverflow) := by
  have : Config.memSize < bytes.length + Config.progBase := by
    simp only [Config.memSize, Config.progBase]
    omega
  rw [eventLoad, if_pos this]

theorem eventTick_halted {s : State} (h : s.fault ≠ none) (n : Nat) : eventTick n s = s := by
  rw [eventTick, if_pos (by simpa [Option.isSome_iff_ne_none] using h)]

theorem eventTick_begins {s : State} (h : s.fault = none) (n : Nat) : eventTick n s = s.setTick (some n) := by
  rw [eventTick, if_neg (by simp [h])]

end Sys2Proof.Machine
end

