-- ==== Sys2Proof/Laws/Encoding.lean ====
section
/-! SUPPORT. What the encoder's three word formats hold: their masked rows and their fields
(`30_encoding.md` R71, R72). -/

namespace Sys2Proof

/-! ### The fixed bits of each format -/

theorem encodeNNN_and (op : Nibble) (nnn : Addr) : encodeNNN op nnn &&& 0xF000 = op ++ 0#12 := by
  ext i hi
  unfold encodeNNN
  simp only [BitVec.getElem_and, BitVec.getElem_append]
  interval_cases i <;> simp

theorem encodeXKK_and_op (op : Nibble) (x : Reg) (kk : Byte) : encodeXKK op x kk &&& 0xF000 = op ++ 0#12 := by
  ext i hi
  unfold encodeXKK
  simp only [BitVec.getElem_and, BitVec.getElem_append]
  interval_cases i <;> simp

theorem encodeXKK_and_opKK (op : Nibble) (x : Reg) (kk : Byte) :
    encodeXKK op x kk &&& 0xF0FF = op ++ 0#4 ++ kk := by
  ext i hi
  unfold encodeXKK
  simp only [BitVec.getElem_and, BitVec.getElem_append]
  interval_cases i <;> simp

theorem encodeXYN_and_op (op : Nibble) (x y : Reg) (n : Nibble) : encodeXYN op x y n &&& 0xF000 = op ++ 0#12 := by
  ext i hi
  unfold encodeXYN
  simp only [BitVec.getElem_and, BitVec.getElem_append]
  interval_cases i <;> simp

theorem encodeXYN_and_opN (op : Nibble) (x y : Reg) (n : Nibble) :
    encodeXYN op x y n &&& 0xF00F = op ++ 0#8 ++ n := by
  ext i hi
  unfold encodeXYN
  simp only [BitVec.getElem_and, BitVec.getElem_append]
  interval_cases i <;> simp

/-! ### The fields of each format -/

@[simp] theorem fieldOp_encodeNNN (op : Nibble) (nnn : Addr) : fieldOp (encodeNNN op nnn) = op := by
  ext i hi
  simp only [fieldOp, encodeNNN, BitVec.getElem_extractLsb', BitVec.getLsbD_append]
  interval_cases i <;> simp

@[simp] theorem fieldNNN_encodeNNN (op : Nibble) (nnn : Addr) : fieldNNN (encodeNNN op nnn) = nnn := by
  ext i hi
  simp only [fieldNNN, encodeNNN, BitVec.getElem_extractLsb', BitVec.getLsbD_append]
  interval_cases i <;> simp

@[simp] theorem fieldOp_encodeXKK (op : Nibble) (x : Reg) (kk : Byte) : fieldOp (encodeXKK op x kk) = op := by
  ext i hi
  simp only [fieldOp, encodeXKK, BitVec.getElem_extractLsb', BitVec.getLsbD_append]
  interval_cases i <;> simp

@[simp] theorem fieldX_encodeXKK (op : Nibble) (x : Reg) (kk : Byte) : fieldX (encodeXKK op x kk) = x := by
  have : (encodeXKK op x kk).extractLsb' 8 4 = BitVec.ofFin x := by
    ext i hi
    simp only [encodeXKK, BitVec.getElem_extractLsb', BitVec.getLsbD_append]
    interval_cases i <;> simp
  simp [fieldX, this]

@[simp] theorem fieldKK_encodeXKK (op : Nibble) (x : Reg) (kk : Byte) : fieldKK (encodeXKK op x kk) = kk := by
  ext i hi
  simp only [fieldKK, encodeXKK, BitVec.getElem_extractLsb', BitVec.getLsbD_append]
  interval_cases i <;> simp

@[simp] theorem fieldOp_encodeXYN (op : Nibble) (x y : Reg) (n : Nibble) : fieldOp (encodeXYN op x y n) = op := by
  ext i hi
  simp only [fieldOp, encodeXYN, BitVec.getElem_extractLsb', BitVec.getLsbD_append]
  interval_cases i <;> simp

@[simp] theorem fieldX_encodeXYN (op : Nibble) (x y : Reg) (n : Nibble) : fieldX (encodeXYN op x y n) = x := by
  have : (encodeXYN op x y n).extractLsb' 8 4 = BitVec.ofFin x := by
    ext i hi
    simp only [encodeXYN, BitVec.getElem_extractLsb', BitVec.getLsbD_append]
    interval_cases i <;> simp
  simp [fieldX, this]

@[simp] theorem fieldY_encodeXYN (op : Nibble) (x y : Reg) (n : Nibble) : fieldY (encodeXYN op x y n) = y := by
  have : (encodeXYN op x y n).extractLsb' 4 4 = BitVec.ofFin y := by
    ext i hi
    simp only [encodeXYN, BitVec.getElem_extractLsb', BitVec.getLsbD_append]
    interval_cases i <;> simp
  simp [fieldY, this]

@[simp] theorem fieldN_encodeXYN (op : Nibble) (x y : Reg) (n : Nibble) : fieldN (encodeXYN op x y n) = n := by
  ext i hi
  simp only [fieldN, encodeXYN, BitVec.getElem_extractLsb', BitVec.getLsbD_append]
  interval_cases i <;> simp

/-! ### A word from its fields -/

/-- A word is its top nibble and its field NNN. -/
theorem encodeNNN_fields (w : Word) : encodeNNN (fieldOp w) (fieldNNN w) = w := by
  apply BitVec.eq_of_getLsbD_eq
  intro i hi
  simp only [fieldOp, fieldNNN, encodeNNN, BitVec.getLsbD_append, BitVec.getLsbD_extractLsb']
  interval_cases i <;> simp

/-- A word is its top nibble and its fields X and KK. -/
theorem encodeXKK_fields (w : Word) : encodeXKK (fieldOp w) (fieldX w) (fieldKK w) = w := by
  apply BitVec.eq_of_getLsbD_eq
  intro i hi
  simp only [fieldOp, fieldX, fieldKK, encodeXKK, BitVec.ofFin_toFin, BitVec.getLsbD_append,
    BitVec.getLsbD_extractLsb']
  interval_cases i <;> simp

/-- A word is its top nibble and its fields X, Y and N. -/
theorem encodeXYN_fields (w : Word) : encodeXYN (fieldOp w) (fieldX w) (fieldY w) (fieldN w) = w := by
  apply BitVec.eq_of_getLsbD_eq
  intro i hi
  simp only [fieldOp, fieldX, fieldY, fieldN, encodeXYN, BitVec.ofFin_toFin, BitVec.getLsbD_append,
    BitVec.getLsbD_extractLsb']
  interval_cases i <;> simp

/-! ### Bytes and words -/

@[simp] theorem joinBytes_bytes (w : Word) : joinBytes (highByte w) (lowByte w) = w := by
  apply BitVec.eq_of_getLsbD_eq
  intro i hi
  simp only [joinBytes, highByte, lowByte, BitVec.getLsbD_append, BitVec.getLsbD_extractLsb']
  interval_cases i <;> simp

end Sys2Proof
end

