-- ==== Sys2Proof/Laws/PerInstr.lean ====
section
/-! SUPPORT. Statements made per instruction. EncodesInRow: the word the encoder gives lies in the instruction's
own row of the opcode map, and the row is one of the map's 34 (`30_encoding.md` R74). -/

namespace Sys2Proof.Laws.EncodesInRow

/-- The instruction's word, masked, is its row's pattern, and the row is a row of the opcode map. -/
def Statement (i : Instr) : Prop := encode i &&& i.row.mask = i.row.value ∧ i.row ∈ opcodeRows

/-- The row of an instruction of the sample list is a row of the opcode map. -/
theorem row_mem (i : Instr) (h : i ∈ Instr.samples) : i.row ∈ opcodeRows := List.mem_map_of_mem h

theorem cls : Statement .cls := ⟨rfl, by decide⟩

theorem ret : Statement .ret := ⟨rfl, by decide⟩

theorem jp (nnn : Addr) : Statement (.jp nnn) :=
  ⟨encodeNNN_and _ _, row_mem (.jp 0) (by decide)⟩

theorem call (nnn : Addr) : Statement (.call nnn) :=
  ⟨encodeNNN_and _ _, row_mem (.call 0) (by decide)⟩

theorem ldI (nnn : Addr) : Statement (.ldI nnn) :=
  ⟨encodeNNN_and _ _, row_mem (.ldI 0) (by decide)⟩

theorem jpV0 (nnn : Addr) : Statement (.jpV0 nnn) :=
  ⟨encodeNNN_and _ _, row_mem (.jpV0 0) (by decide)⟩

theorem seImm (x : Reg) (kk : Byte) : Statement (.seImm x kk) :=
  ⟨encodeXKK_and_op _ _ _, row_mem (.seImm 0 0) (by decide)⟩

theorem sneImm (x : Reg) (kk : Byte) : Statement (.sneImm x kk) :=
  ⟨encodeXKK_and_op _ _ _, row_mem (.sneImm 0 0) (by decide)⟩

theorem ldImm (x : Reg) (kk : Byte) : Statement (.ldImm x kk) :=
  ⟨encodeXKK_and_op _ _ _, row_mem (.ldImm 0 0) (by decide)⟩

theorem addImm (x : Reg) (kk : Byte) : Statement (.addImm x kk) :=
  ⟨encodeXKK_and_op _ _ _, row_mem (.addImm 0 0) (by decide)⟩

theorem rnd (x : Reg) (kk : Byte) : Statement (.rnd x kk) :=
  ⟨encodeXKK_and_op _ _ _, row_mem (.rnd 0 0) (by decide)⟩

theorem seReg (x y : Reg) : Statement (.seReg x y) :=
  ⟨encodeXYN_and_opN _ _ _ _, row_mem (.seReg 0 0) (by decide)⟩

theorem ldReg (x y : Reg) : Statement (.ldReg x y) :=
  ⟨encodeXYN_and_opN _ _ _ _, row_mem (.ldReg 0 0) (by decide)⟩

theorem orReg (x y : Reg) : Statement (.orReg x y) :=
  ⟨encodeXYN_and_opN _ _ _ _, row_mem (.orReg 0 0) (by decide)⟩

theorem andReg (x y : Reg) : Statement (.andReg x y) :=
  ⟨encodeXYN_and_opN _ _ _ _, row_mem (.andReg 0 0) (by decide)⟩

theorem xorReg (x y : Reg) : Statement (.xorReg x y) :=
  ⟨encodeXYN_and_opN _ _ _ _, row_mem (.xorReg 0 0) (by decide)⟩

theorem addReg (x y : Reg) : Statement (.addReg x y) :=
  ⟨encodeXYN_and_opN _ _ _ _, row_mem (.addReg 0 0) (by decide)⟩

theorem subReg (x y : Reg) : Statement (.subReg x y) :=
  ⟨encodeXYN_and_opN _ _ _ _, row_mem (.subReg 0 0) (by decide)⟩

theorem shr (x y : Reg) : Statement (.shr x y) :=
  ⟨encodeXYN_and_opN _ _ _ _, row_mem (.shr 0 0) (by decide)⟩

theorem subnReg (x y : Reg) : Statement (.subnReg x y) :=
  ⟨encodeXYN_and_opN _ _ _ _, row_mem (.subnReg 0 0) (by decide)⟩

theorem shl (x y : Reg) : Statement (.shl x y) :=
  ⟨encodeXYN_and_opN _ _ _ _, row_mem (.shl 0 0) (by decide)⟩

theorem sneReg (x y : Reg) : Statement (.sneReg x y) :=
  ⟨encodeXYN_and_opN _ _ _ _, row_mem (.sneReg 0 0) (by decide)⟩

theorem drw (x y : Reg) (n : Nibble) : Statement (.drw x y n) :=
  ⟨encodeXYN_and_op _ _ _ _, row_mem (.drw 0 0 0) (by decide)⟩

theorem skp (x : Reg) : Statement (.skp x) :=
  ⟨encodeXKK_and_opKK _ _ _, row_mem (.skp 0) (by decide)⟩

theorem sknp (x : Reg) : Statement (.sknp x) :=
  ⟨encodeXKK_and_opKK _ _ _, row_mem (.sknp 0) (by decide)⟩

theorem ldVxDt (x : Reg) : Statement (.ldVxDt x) :=
  ⟨encodeXKK_and_opKK _ _ _, row_mem (.ldVxDt 0) (by decide)⟩

theorem ldVxK (x : Reg) : Statement (.ldVxK x) :=
  ⟨encodeXKK_and_opKK _ _ _, row_mem (.ldVxK 0) (by decide)⟩

theorem ldDtVx (x : Reg) : Statement (.ldDtVx x) :=
  ⟨encodeXKK_and_opKK _ _ _, row_mem (.ldDtVx 0) (by decide)⟩

theorem ldStVx (x : Reg) : Statement (.ldStVx x) :=
  ⟨encodeXKK_and_opKK _ _ _, row_mem (.ldStVx 0) (by decide)⟩

theorem addI (x : Reg) : Statement (.addI x) :=
  ⟨encodeXKK_and_opKK _ _ _, row_mem (.addI 0) (by decide)⟩

theorem ldF (x : Reg) : Statement (.ldF x) :=
  ⟨encodeXKK_and_opKK _ _ _, row_mem (.ldF 0) (by decide)⟩

theorem ldB (x : Reg) : Statement (.ldB x) :=
  ⟨encodeXKK_and_opKK _ _ _, row_mem (.ldB 0) (by decide)⟩

theorem storeRegs (x : Reg) : Statement (.storeRegs x) :=
  ⟨encodeXKK_and_opKK _ _ _, row_mem (.storeRegs 0) (by decide)⟩

theorem loadRegs (x : Reg) : Statement (.loadRegs x) :=
  ⟨encodeXKK_and_opKK _ _ _, row_mem (.loadRegs 0) (by decide)⟩

end Sys2Proof.Laws.EncodesInRow
end

