-- ==== Sys2Proof/Tests/Slice0.lean ====
section
/-! SUPPORT. Tests of one step or one event each. Their expected results are the vectors of
`95_test_vectors.md` (the id stands in the docstring) or, where it says so, computed by hand from the rule. The
theorems `test_witness_…` show that the hypotheses of a statement can be met together. -/

namespace Sys2Proof.Tests

open Sys2Proof Sys2Proof.Machine

/-! ### Small states -/

/-- The reset state with these registers. -/
def withV (rs : List (Reg × Byte)) : State := rs.foldl (fun s r => s.setV r.1 r.2) State.reset

/-- The state with these bytes in memory from `a` on. -/
def withMem (a : Nat) (bytes : List Byte) (s : State) : State := s.setMem (Memory.writeAll s.font s.mem a bytes)

/-- One step on the state with the word placed at pc. -/
def ran (w : Nat) (s : State) : Option State := nextState (step (s.withFetchWord 16 w))

/-- A field of the state after one step on the state with the word placed at pc. -/
def after (w : Nat) (s : State) (f : State → α) : Option α := (ran w s).map f

/-- The fault of one step on the state with the word placed at pc. -/
def stopped (w : Nat) (s : State) : Option Fault := faultOf (step (s.withFetchWord 16 w))

/-- The state after the host's one event is taken. -/
def took (e : Event) (s : State) : Option State := nextState (step (s.setInbox [e]))

/-- The reset state with a tick in progress and `k` instructions left. -/
def ticking (k : Nat) : State := State.reset.setTick (some k)

/-- The reset state paused for register `r`. -/
def paused (r : Reg) : State := State.reset.setKeyWait (some r)

/-- The reset state halted by a return on an empty stack. -/
def halted : State := State.reset.raise .stackUnderflow 0x200 0x00EE

/-- The state with nothing listed in memory but the word at 0x200, an instruction left to run. -/
def placed (w : Nat) : State := State.reset.withFetchWord 16 w

/-! ### Well-formedness: an ill-formed term for each check -/

/-- Words of no row of the opcode map (`95_test_vectors.md` 2.6). -/
theorem test_illegal_words_refused :
    [0x0000, 0x00E1, 0x00EF, 0x0123, 0x5121, 0x8128, 0x812D, 0x812F, 0x9121, 0x9ABF, 0xE19F, 0xE100, 0xE0A2,
      0xF100, 0xF156, 0xF1FF, 0xFFFF].all (fun w => !wordWellFormed w) = true := by decide

/-- Their nearest legal words (`95_test_vectors.md` 2.6). -/
theorem test_legal_words_accepted :
    [0x00E0, 0x00EE, 0x5120, 0x8127, 0x812E, 0x9120, 0xE19E, 0xE0A1, 0xF107, 0xF155].all wordWellFormed = true := by
  decide

/-- The same words at the decoder. -/
theorem test_illegal_words_not_decoded :
    [0x0000, 0x00E1, 0x00EF, 0x0123, 0x5121, 0x8128, 0x812D, 0x812F, 0x9121, 0x9ABF, 0xE19F, 0xE100, 0xE0A2,
      0xF100, 0xF156, 0xF1FF, 0xFFFF].all (fun w => (decodeTableWord 16 w).isNone) = true := by decide

/-- An instruction takes two bytes (`30_encoding.md` R70). -/
theorem test_short_bytes_refused : decode [0x12] = .error .truncated ∧ decode [] = .error .truncated := by decide

theorem test_unsorted_memory_refused : ¬ Memory.wf Config.defaultFont [(0x301, 1), (0x300, 2)] := by decide

theorem test_repeated_address_refused : ¬ Memory.wf Config.defaultFont [(0x300, 1), (0x300, 2)] := by decide

theorem test_memory_above_fff_refused : ¬ Memory.wf Config.defaultFont [(0x1000, 1)] := by decide

theorem test_listed_default_refused :
    ¬ Memory.wf Config.defaultFont [(0x300, 0)] ∧ ¬ Memory.wf Config.defaultFont [(0x000, 0xF0)] := by decide

theorem test_full_stack_plus_one_refused : ¬ (State.reset.setStack (List.replicate 17 0x202)).Inv := by decide

theorem test_paused_and_halted_refused : ¬ (halted.setKeyWait (some 3)).Inv := by decide

theorem test_halted_in_tick_refused : ¬ (halted.setTick (some 1)).Inv := by decide

theorem test_pc_above_bound_refused : ¬ (State.reset.setPc 0x10FF).PcBound := by decide

theorem test_entry_outside_bound_refused :
    ¬ (State.reset.setStack [0x0001]).PcBound ∧ ¬ (State.reset.setStack [0x1001]).PcBound := by
  simp [State.PcBound]

/-! ### Decoding: one word of each row, written from its encoding in `30_encoding.md` R74 -/

theorem test_decode_group0 :
    decodeWord 0b0000_0000_1110_0000 = .ok .cls ∧ decodeWord 0b0000_0000_1110_1110 = .ok .ret := by decide

theorem test_decode_jumps :
    decodeWord 0b0001_1010_1011_1100 = .ok (.jp 0xABC) ∧ decodeWord 0b0010_0011_0000_0001 = .ok (.call 0x301) ∧
      decodeWord 0b1011_1111_1111_1110 = .ok (.jpV0 0xFFE) := by decide

theorem test_decode_skips :
    decodeWord 0b0011_0001_0100_0010 = .ok (.seImm 1 0x42) ∧ decodeWord 0b0100_1110_0001_1111 = .ok (.sneImm 14 0x1F) ∧
      decodeWord 0b0101_0001_0010_0000 = .ok (.seReg 1 2) ∧ decodeWord 0b1001_1010_1011_0000 = .ok (.sneReg 10 11) := by
  decide

theorem test_decode_immediates :
    decodeWord 0b0110_1010_0111_1111 = .ok (.ldImm 10 0x7F) ∧ decodeWord 0b0111_0001_0000_0101 = .ok (.addImm 1 0x05) ∧
      decodeWord 0b1100_0011_0000_1111 = .ok (.rnd 3 0x0F) := by decide

theorem test_decode_logic :
    decodeWord 0b1000_0001_0010_0000 = .ok (.ldReg 1 2) ∧ decodeWord 0b1000_0001_0010_0001 = .ok (.orReg 1 2) ∧
      decodeWord 0b1000_0001_0010_0010 = .ok (.andReg 1 2) ∧ decodeWord 0b1000_0001_0010_0011 = .ok (.xorReg 1 2) := by
  decide

theorem test_decode_arithmetic :
    decodeWord 0b1000_0001_1111_0100 = .ok (.addReg 1 15) ∧ decodeWord 0b1000_0001_1111_0101 = .ok (.subReg 1 15) ∧
      decodeWord 0b1000_0001_1010_0110 = .ok (.shr 1 10) ∧ decodeWord 0b1000_0001_1111_0111 = .ok (.subnReg 1 15) ∧
      decodeWord 0b1000_1111_0000_1110 = .ok (.shl 15 0) := by decide

/-- The word 0xD7A3 is the field example of `95_test_vectors.md` 2.6. -/
theorem test_decode_index_and_draw :
    decodeWord 0b1010_0001_0010_0011 = .ok (.ldI 0x123) ∧ decodeWord 0b1101_0111_1010_0011 = .ok (.drw 7 10 3) := by
  decide

theorem test_decode_keys :
    decodeWord 0b1110_0001_1001_1110 = .ok (.skp 1) ∧ decodeWord 0b1110_0010_1010_0001 = .ok (.sknp 2) ∧
      decodeWord 0b1111_0011_0000_1010 = .ok (.ldVxK 3) := by decide

theorem test_decode_timers :
    decodeWord 0b1111_0001_0000_0111 = .ok (.ldVxDt 1) ∧ decodeWord 0b1111_0010_0001_0101 = .ok (.ldDtVx 2) ∧
      decodeWord 0b1111_0011_0001_1000 = .ok (.ldStVx 3) := by decide

theorem test_decode_index_group :
    decodeWord 0b1111_0001_0001_1110 = .ok (.addI 1) ∧ decodeWord 0b1111_0010_0010_1001 = .ok (.ldF 2) ∧
      decodeWord 0b1111_0011_0011_0011 = .ok (.ldB 3) ∧ decodeWord 0b1111_0100_0101_0101 = .ok (.storeRegs 4) ∧
      decodeWord 0b1111_0101_0110_0101 = .ok (.loadRegs 5) := by decide

/-- The byte at the lower address is bits 15 to 8 (`20_memory.md` R52: 0x12, 0x34 is the word 0x1234). -/
theorem test_big_endian : joinBytes 0x12 0x34 = 0x1234 ∧ encodeBytes (.jp 0x234) = [0x12, 0x34] := by decide

/-! ### Control transfer -/

/-- A1, A24. -/
theorem test_jp : after 0x1ABC State.reset (·.pc) = some 0xABC ∧ after 0x1FFF State.reset (·.pc) = some 0xFFF := by
  decide

/-- A3. -/
theorem test_call : after 0x2300 State.reset (fun t => (t.stack, t.pc)) = some ([0x202], 0x300) := by decide

/-- A20: 2NNN with 16 entries in use. -/
theorem test_call_overflow :
    after 0x2200 (State.reset.setStack (List.replicate 16 0x202)) (fun t => (t.fault, t.pc, t.stack.length, t.tick)) =
      some (some ⟨.stackOverflow, 0x200, 0x2200⟩, 0x202, 16, none) := by decide

/-- A4, and the second step of A21 undone by its third. -/
theorem test_ret :
    after 0x00EE (State.reset.setStack [0x206]) (fun t => (t.pc, t.stack)) = some (0x206, []) ∧
      after 0x00EE (State.reset.setStack [0x202, 0x206]) (fun t => (t.pc, t.stack)) = some (0x206, [0x202]) := by
  decide

/-- A5. -/
theorem test_ret_underflow :
    after 0x00EE State.reset (fun t => (t.fault, t.pc, t.stack, t.tick)) =
      some (some ⟨.stackUnderflow, 0x200, 0x00EE⟩, 0x202, [], none) := by decide

/-- A6, A7. -/
theorem test_seImm :
    after 0x3142 (withV [(1, 0x42)]) (·.pc) = some 0x204 ∧ after 0x3142 (withV [(1, 0x43)]) (·.pc) = some 0x202 := by
  decide

/-- A8, A9. -/
theorem test_sneImm :
    after 0x4142 (withV [(1, 0x42)]) (·.pc) = some 0x202 ∧ after 0x4142 (withV [(1, 0x43)]) (·.pc) = some 0x204 := by
  decide

/-- A10, A11, A12. -/
theorem test_seReg :
    after 0x5120 (withV [(1, 7), (2, 7)]) (·.pc) = some 0x204 ∧
      after 0x5120 (withV [(1, 7), (2, 8)]) (·.pc) = some 0x202 ∧ after 0x5110 (withV [(1, 9)]) (·.pc) = some 0x204 := by
  decide

/-- A13, A14, A15. -/
theorem test_sneReg :
    after 0x9120 (withV [(1, 7), (2, 7)]) (·.pc) = some 0x202 ∧
      after 0x9120 (withV [(1, 7), (2, 8)]) (·.pc) = some 0x204 ∧ after 0x9110 (withV [(1, 9)]) (·.pc) = some 0x202 := by
  decide

/-- A16, A17, A18. -/
theorem test_jpV0 :
    after 0xB300 (withV [(0, 0x10)]) (·.pc) = some 0x310 ∧ after 0xB201 State.reset (·.pc) = some 0x201 ∧
      after 0xBFFF (withV [(0, 0xFF)]) (·.pc) = some 0x10FE := by decide

/-- A22, A23: 0xFFE is the last fetchable address, and a skip near the top is not masked. -/
theorem test_top_of_memory :
    after 0x6101 (State.reset.setPc 0xFFE) (fun t => (t.getV 1, t.pc)) = some (1, 0x1000) ∧
      after 0x3100 (State.reset.setPc 0xFFB) (·.pc) = some 0xFFF ∧
      stopped 0x6101 (State.reset.setPc 0xFFF) = some .fetchOutOfRange := by decide

/-! ### Loads and ALU -/

/-- B1, B2. -/
theorem test_ldImm :
    after 0x6A7F State.reset (·.getV 10) = some 0x7F ∧ after 0x6F01 State.reset (·.getV VF) = some 1 := by decide

/-- B3, B4. -/
theorem test_addImm :
    after 0x7105 (withV [(1, 0xFE)]) (fun t => (t.getV 1, t.getV VF)) = some (0x03, 0) ∧
      after 0x7FFF (withV [(VF, 1)]) (·.getV VF) = some 0 := by decide

/-- B5. -/
theorem test_ldReg : after 0x8120 (withV [(1, 1), (2, 0x99)]) (·.getV 1) = some 0x99 := by decide

/-- B6. -/
theorem test_orReg :
    after 0x8121 (withV [(1, 0xF0), (2, 0x0F), (VF, 1)]) (fun t => (t.getV 1, t.getV VF)) = some (0xFF, 1) := by decide

/-- B7. -/
theorem test_andReg :
    after 0x8122 (withV [(1, 0xF0), (2, 0x3C), (VF, 1)]) (fun t => (t.getV 1, t.getV VF)) = some (0x30, 1) := by decide

/-- B8, B9. -/
theorem test_xorReg :
    after 0x8123 (withV [(1, 0xFF), (2, 0x0F), (VF, 1)]) (fun t => (t.getV 1, t.getV VF)) = some (0xF0, 1) ∧
      after 0x8113 (withV [(1, 0x5A)]) (·.getV 1) = some 0 := by decide

/-- B10, B11, B12. -/
theorem test_addReg :
    after 0x8124 (withV [(1, 250), (2, 10)]) (fun t => (t.getV 1, t.getV VF)) = some (4, 1) ∧
      after 0x8124 (withV [(1, 255), (2, 0)]) (fun t => (t.getV 1, t.getV VF)) = some (255, 0) ∧
      after 0x8124 (withV [(1, 255), (2, 1)]) (fun t => (t.getV 1, t.getV VF)) = some (0, 1) := by decide

/-- B14, B15, B16: VF as an operand. -/
theorem test_addReg_vf :
    after 0x81F4 (withV [(1, 10), (VF, 1)]) (fun t => (t.getV 1, t.getV VF)) = some (11, 0) ∧
      after 0x8F14 (withV [(VF, 200), (1, 100)]) (·.getV VF) = some 0x2C ∧
      after 0x8FF4 (withV [(VF, 0x81)]) (·.getV VF) = some 0x02 := by decide

/-- B17, B18, B19. -/
theorem test_subReg :
    after 0x8125 (withV [(1, 10), (2, 250)]) (fun t => (t.getV 1, t.getV VF)) = some (16, 0) ∧
      after 0x8125 (withV [(1, 250), (2, 10)]) (fun t => (t.getV 1, t.getV VF)) = some (240, 1) ∧
      after 0x8125 (withV [(1, 7), (2, 7)]) (fun t => (t.getV 1, t.getV VF)) = some (0, 0) := by decide

/-- B20, B21, B22, B23, B24: VF as an operand. -/
theorem test_subReg_vf :
    after 0x81F5 (withV [(1, 5), (VF, 3)]) (fun t => (t.getV 1, t.getV VF)) = some (4, 1) ∧
      after 0x81F5 (withV [(1, 1), (VF, 1)]) (fun t => (t.getV 1, t.getV VF)) = some (1, 0) ∧
      after 0x8F15 (withV [(VF, 9), (1, 4)]) (·.getV VF) = some 0xFD ∧
      after 0x8F15 (withV [(VF, 0), (1, 4)]) (·.getV VF) = some 0xFC ∧
      after 0x8FF5 (withV [(VF, 9)]) (·.getV VF) = some 0 := by decide

/-- B26, B27. -/
theorem test_shr :
    after 0x81A6 (withV [(1, 0x05), (10, 0xFF)]) (fun t => (t.getV 1, t.getV VF, t.getV 10)) = some (0x02, 1, 0xFF) ∧
      after 0x8106 (withV [(1, 0x80)]) (fun t => (t.getV 1, t.getV VF)) = some (0x40, 0) := by decide

/-- B28, B37, B38: VF as the operand. -/
theorem test_shift_vf :
    after 0x8F06 (withV [(VF, 3)]) (·.getV VF) = some 0 ∧ after 0x8F0E (withV [(VF, 0x80)]) (·.getV VF) = some 0x02 ∧
      after 0x8F0E (withV [(VF, 0x7F)]) (·.getV VF) = some 0x00 := by decide

/-- B29, B30, B31. -/
theorem test_subnReg :
    after 0x8127 (withV [(1, 10), (2, 250)]) (fun t => (t.getV 1, t.getV VF)) = some (240, 1) ∧
      after 0x8127 (withV [(1, 250), (2, 10)]) (fun t => (t.getV 1, t.getV VF)) = some (16, 0) ∧
      after 0x8127 (withV [(1, 7), (2, 7)]) (fun t => (t.getV 1, t.getV VF)) = some (0, 0) := by decide

/-- B32, B33, B34: VF as an operand. -/
theorem test_subnReg_vf :
    after 0x81F7 (withV [(1, 0), (VF, 9)]) (fun t => (t.getV 1, t.getV VF)) = some (1, 1) ∧
      after 0x8F17 (withV [(VF, 1), (1, 200)]) (·.getV VF) = some 0xC7 ∧
      after 0x8F17 (withV [(VF, 200), (1, 200)]) (·.getV VF) = some 0xC8 := by decide

/-- B35, B36. -/
theorem test_shl :
    after 0x810E (withV [(1, 0x81)]) (fun t => (t.getV 1, t.getV VF)) = some (0x02, 1) ∧
      after 0x810E (withV [(1, 0x40)]) (fun t => (t.getV 1, t.getV VF)) = some (0x80, 0) := by decide

/-- B40: whatever the draw, the mask 0 leaves 0. -/
theorem test_rnd : after 0xC300 (withV [(3, 0x55)]) (·.draws) = some 1 ∧
    (after 0xC300 (withV [(3, 0x55)]) (·.getV 3)) = some 0 := by
  refine ⟨by decide, ?_⟩
  show some (Config.rnd 0 &&& 0) = some 0
  simp

/-! ### Index and memory -/

/-- C1. -/
theorem test_ldI : after 0xA123 State.reset (·.index) = some 0x123 := by decide

/-- C2, C3. -/
theorem test_addI :
    after 0xF11E ((withV [(1, 0x10)]).setIndex 0xFF8) (fun t => (t.index, t.getV VF)) = some (0x1008, 0) ∧
      after 0xF11E ((withV [(1, 0xFF)]).setIndex 0xFFFF) (·.index) = some 0x00FE := by decide

/-- C5, C6, C7. -/
theorem test_ldF :
    after 0xF129 (withV [(1, 0x0A)]) (·.index) = some 0x032 ∧ after 0xF129 (withV [(1, 0x10)]) (·.index) = some 0x050 ∧
      after 0xF129 (withV [(1, 0xFF)]) (·.index) = some 0x4FB := by decide

/-- C8, C12. -/
theorem test_ldB :
    after 0xF133 ((withV [(1, 254)]).setIndex 0x300) (fun t => [t.peek 0x300, t.peek 0x301, t.peek 0x302]) =
        some [2, 5, 4] ∧
      after 0xF133 ((withV [(1, 255)]).setIndex 0xFFD) (fun t => [t.peek 0xFFD, t.peek 0xFFE, t.peek 0xFFF]) =
        some [2, 5, 5] := by decide

/-- C14: X inclusive. -/
theorem test_storeRegs :
    after 0xF255 ((withV [(0, 1), (1, 2), (2, 3), (3, 4)]).setIndex 0x300)
        (fun t => ([t.peek 0x300, t.peek 0x301, t.peek 0x302, t.peek 0x303], t.index)) =
      some ([1, 2, 3, 0], 0x300) := by decide

/-- C17, C18. -/
theorem test_loadRegs :
    after 0xF265 (withMem 0x300 [9, 8, 7, 6] (State.reset.setIndex 0x300))
        (fun t => ([t.getV 0, t.getV 1, t.getV 2, t.getV 3], t.index)) = some ([9, 8, 7, 0], 0x300) ∧
      after 0xF065 State.reset (·.getV 0) = some 0xF0 := by decide

/-- C13, C16, C20, D10: the first address above 0xFFF. -/
theorem test_mem_out_of_range :
    stopped 0xF133 (State.reset.setIndex 0xFFE) = some .memOutOfRange ∧
      stopped 0xFF55 (State.reset.setIndex 0xFF1) = some .memOutOfRange ∧
      stopped 0xFF65 (State.reset.setIndex 0xFF1) = some .memOutOfRange ∧
      stopped 0xD012 (State.reset.setIndex 0xFFF) = some .memOutOfRange := by decide

/-- C16, C19, D5, D9: the last addresses that are legal. -/
theorem test_mem_in_range :
    stopped 0xFF55 (State.reset.setIndex 0xFF0) = none ∧
      after 0xFF65 (withMem 0xFFF [0x55] (State.reset.setIndex 0xFF0)) (·.getV VF) = some 0x55 ∧
      after 0xD011 (withMem 0xFFF [0x80] (State.reset.setIndex 0xFFF)) (fun t => pixel t.fb (0, 0)) = some true ∧
      after 0xD010 ((withV [(VF, 1)]).setIndex 0xFFF0) (·.getV VF) = some 0 := by decide

/-! ### Display -/

/-- D1, on a screen with one pixel set. -/
theorem test_cls :
    after 0x00E0 ((withV [(VF, 1)]).setFb (toggle blankScreen (5, 6))) (fun t => (pixel t.fb (5, 6), t.getV VF)) =
      some (false, 1) := by decide

/-- D4, the wrap of E5, and D3, which tells the bit order. -/
theorem test_drw_wraps :
    after 0xD011 (withMem 0x300 [0xFF] ((withV [(0, 63), (1, 31)]).setIndex 0x300))
        (fun t => (pixel t.fb (63, 31), pixel t.fb (0, 31), pixel t.fb (6, 31), pixel t.fb (7, 31), t.getV VF)) =
        some (true, true, true, false, 0) ∧
      after 0xD011 (withMem 0x300 [0x80] ((withV [(0, 70), (1, 40)]).setIndex 0x300))
        (fun t => (pixel t.fb (6, 8), pixel t.fb (13, 8))) = some (true, false) := by decide

/-- The second draw of D6 on the first one's screen, and D7, D8: a coordinate in VF reads 0. -/
theorem test_drw_collides :
    after 0xD011 (withMem 0x301 [0x3C] ((State.reset.setIndex 0x301).setFb
          (toggleAll blankScreen [(0, 0), (1, 0), (2, 0), (3, 0)])))
        (fun t => ([0, 1, 2, 3, 4, 5].map (fun x => pixel t.fb (x, 0)), t.getV VF)) =
        some ([true, true, false, false, true, true], 1) ∧
      after 0xDF11 (withMem 0x300 [0x80] ((withV [(VF, 5), (1, 2)]).setIndex 0x300)) (fun t => pixel t.fb (0, 2)) =
        some true ∧
      after 0xD1F1 (withMem 0x300 [0x80] ((withV [(VF, 5), (1, 2)]).setIndex 0x300)) (fun t => pixel t.fb (2, 0)) =
        some true := by decide

/-! ### Timers and keys -/

/-- F1, F2, F3. -/
theorem test_timers :
    after 0xF107 (State.reset.setDt 0x2A) (fun t => (t.getV 1, t.dt)) = some (0x2A, 0x2A) ∧
      after 0xF115 (withV [(1, 0x3C)]) (·.dt) = some 0x3C ∧
      after 0xF118 (withV [(1, 2)]) (fun t => (t.st, t.tone)) = some (2, false) := by decide

/-- F4. -/
theorem test_ldVxK :
    after 0xF30A (withV [(3, 0x77)]) (fun t => (t.keyWait, t.pc, t.getV 3)) = some (some 3, 0x202, 0x77) := by decide

/-- F5, F6, F9. -/
theorem test_skp :
    after 0xE19E ((withV [(1, 3)]).setKeys ((Vector.replicate 16 false).set 3 true)) (·.pc) = some 0x204 ∧
      after 0xE19E (withV [(1, 3)]) (·.pc) = some 0x202 ∧
      stopped 0xE19E (withV [(1, 16)]) = some .keyIndexOutOfRange := by decide

/-- F7, F8, F10. -/
theorem test_sknp :
    after 0xE1A1 ((withV [(1, 3)]).setKeys ((Vector.replicate 16 false).set 3 true)) (·.pc) = some 0x202 ∧
      after 0xE1A1 (withV [(1, 3)]) (·.pc) = some 0x204 ∧
      stopped 0xE1A1 (withV [(1, 255)]) = some .keyIndexOutOfRange := by decide

/-! ### Illegal words, ticks and events -/

/-- `95_test_vectors.md` 2.6: 0x5121 at 0x200; and G6: no timer phase and no PRESENT. -/
theorem test_illegal_opcode :
    after 0x5121 (State.reset.setDt 5) (fun t => (t.fault, t.pc, t.dt, t.present, t.tick)) =
      some (some ⟨.illegalOpcode, 0x200, 0x5121⟩, 0x202, 5, false, none) := by decide

/-- `60_exceptions.md` R200's table: codes 1, 2 (P7 names it too) and 3; 0 when no fault is latched. -/
theorem test_fault_codes :
    after 0x5121 State.reset (·.faultCode) = some 1 ∧ after 0x00EE State.reset (·.faultCode) = some 2 ∧
      after 0x2200 (State.reset.setStack (List.replicate 16 0x202)) (·.faultCode) = some 3 ∧
      after 0x00E0 State.reset (·.faultCode) = some 0 := by decide

/-- G1: `tick(0)`, its last step. -/
theorem test_end_of_tick :
    (nextState (step (((ticking 0).setDt 5).setSt 1))).map (fun t => (t.dt, t.st, t.tone, t.present, t.tick)) =
      some (4, 0, false, true, none) := by decide

/-- G2, its first and third tick's last step, and R93 for timers at 0. -/
theorem test_tone :
    (nextState (step ((ticking 0).setSt 3))).map (fun t => (t.st, t.tone)) = some (2, true) ∧
      (nextState (step (ticking 0))).map (fun t => (t.dt, t.st, t.tone)) = some (0, 0, false) := by decide

/-- G4: a pause cuts the batch and freezes the timers; PRESENT pulses. -/
theorem test_pause_ends_tick :
    (nextState (step (((paused 0).setTick (some 3)).setDt 5))).map (fun t => (t.dt, t.tone, t.present, t.keyWait)) =
      some (5, false, true, some 0) := by decide

/-- G5: the first event fulfils the request, the second finds none. -/
theorem test_key_down :
    (took (.keyDown 0xC) (paused 0)).map (fun t => (t.getV 0, t.keys[12], t.keyWait, t.pc)) =
        some (0x0C, true, none, 0x200) ∧
      (took (.keyDown 0xD) (withV [(0, 0x0C)])).map (fun t => (t.getV 0, t.keys[13])) = some (0x0C, true) := by decide

/-- G9, its second event; a wait stays pending (R96). -/
theorem test_key_up :
    (took (.keyUp 2) ((paused 5).setKeys ((Vector.replicate 16 false).set 2 true))).map
      (fun t => (t.keys[2], t.getV 5, t.keyWait)) = some (false, 0, some 5) := by decide

/-- G7: a halted machine's tick does nothing. -/
theorem test_tick_halted : (took (.tick 5) halted).map (fun t => (t.tick, t.pc, t.fault)) =
    some (none, 0x200, some ⟨.stackUnderflow, 0x200, 0x00EE⟩) := by decide

/-- G8, R-a, R-b. -/
theorem test_reset_event :
    (took .reset (withMem 0x300 [0x55] (((halted.setV 3 9).setDt 9).setKeys
        ((Vector.replicate 16 false).set 4 true)))).map
      (fun t => (t.getV 3, t.dt, t.fault, t.peek 0x300, t.peek 0, t.keys[4])) =
        some (0, 0, none, 0, 0xF0, true) ∧
      (took .reset (paused 3)).map (fun t => (t.keyWait, t.getV 3)) = some (none, 0) := by decide

/-- E8: the bytes of P1 land from 0x200 on. -/
theorem test_load :
    (took (.loadProgram [0x60, 0x05, 0x60, 0x0A]) State.reset).map
      (fun t => ([t.peek 0x1FF, t.peek 0x200, t.peek 0x203, t.peek 0x204], t.reply)) =
        some ([0, 0x60, 0x0A, 0], some .ok) := by decide

/-- H1: 3585 bytes are refused whole. -/
theorem test_load_overflow :
    (took (.loadProgram (List.replicate 3585 0xAA)) State.reset).map (fun t => (t.mem, t.reply)) =
      some ([], some .loadOverflow) := by
  have key : ∀ bytes : List Byte, 3584 < bytes.length →
      (took (.loadProgram bytes) State.reset).map (fun t => (t.mem, t.reply)) = some ([], some .loadOverflow) := by
    intro bytes h
    have h' : Config.memSize < bytes.length + Config.progBase := by
      simp only [Config.memSize, Config.progBase]
      omega
    have e : ∀ s : State, eventLoad bytes s = s.setReply (some .loadOverflow) := fun s => if_pos h'
    simp only [took, step, machineStep, hostStep, State.setInbox, State.quiet, applyEvent, e, State.reset, nextState,
      Option.map, State.setReply]
  exact key _ (by rw [List.length_replicate]; decide)

/-! ### Every statement's hypotheses can be met -/

theorem test_witness_EncodeOfDecode : decodeWord 0x81A6 = .ok (.shr 1 10) := by decide

theorem test_witness_OpcodeMapExact :
    wordWellFormed 0x812E = true ∧ wordWellFormed 0x812F = false ∧
      ∃ r ∈ opcodeRows, r.holds 0x812E = true := by decide

theorem test_witness_StepRunsDecoded :
    (placed 0x6A7F).Running 0 ∧ (placed 0x6A7F).pc.toNat ≤ 0xFFE ∧
      decodeWord (joinBytes ((placed 0x6A7F).peek (placed 0x6A7F).pc.toNat)
        ((placed 0x6A7F).peek ((placed 0x6A7F).pc.toNat + 1))) = .ok (.ldImm 10 0x7F) := by decide

theorem test_witness_StepIllegalOpcode :
    (placed 0x5121).Running 0 ∧ (placed 0x5121).pc.toNat ≤ 0xFFE ∧
      (0x5121 : Word) = joinBytes ((placed 0x5121).peek (placed 0x5121).pc.toNat)
        ((placed 0x5121).peek ((placed 0x5121).pc.toNat + 1)) ∧ wordWellFormed 0x5121 = false := by decide

theorem test_witness_StepFetchOutOfRange :
    ((ticking 1).setPc 0xFFF).Running 0 ∧ 0xFFE < ((ticking 1).setPc 0xFFF).pc.toNat := by decide

theorem test_witness_PlacedWordRuns :
    (State.reset.setPc 0xFFE).pc.toNat ≤ 0xFFE ∧ decodeTableWord 16 0x6101 = some (.ldImm 1 1) := by decide

theorem test_witness_TickIsItsSteps :
    (State.reset.setInbox [.tick 2, .keyUp 1]).tick = none ∧
      (State.reset.setInbox [.tick 2, .keyUp 1]).inbox = .tick 2 :: [.keyUp 1] := by decide

theorem test_witness_EndOfTick :
    ((ticking 0).tick = some 0 ∧ (ticking 0).fault = none) ∧
      (((paused 3).setTick (some 5)).tick = some 5 ∧ ((paused 3).setTick (some 5)).fault = none ∧
        ((paused 3).setTick (some 5)).keyWait ≠ none) := by decide

theorem test_witness_PresentOnlyAtEndOfTick :
    (∃ t, step (ticking 0) = .next t ∧ t.present = true) ∧
      (∃ t, step (ticking 1) = .next t ∧ t.present = false) := ⟨⟨_, rfl, by decide⟩, ⟨_, rfl, by decide⟩⟩

theorem test_witness_HaltedUntilReset :
    (halted.Inv ∧ halted.fault = some ⟨.stackUnderflow, 0x200, 0x00EE⟩) ∧
      (halted.setInbox [.reset]).Inv ∧
      (halted.setInbox [.reset]).fault = some ⟨.stackUnderflow, 0x200, 0x00EE⟩ := by decide

theorem test_witness_PausedUntilKeyDown :
    (paused 1).keyWait = some 1 ∧ (paused 1).fault = none ∧
      (∀ e rest, (paused 1).tick = none → ((paused 1).setInbox [.keyUp 2]).inbox = e :: rest →
        e ≠ .reset ∧ ∀ c, e ≠ .keyDown c) := by
  refine ⟨rfl, rfl, fun e rest _ h => ?_⟩
  cases h
  exact ⟨nofun, nofun⟩

theorem test_witness_WaitsForHost : State.reset.tick = none ∧ State.reset.inbox = [] := by decide

theorem test_witness_FaultsArePrecise :
    (placed 0x00EE).Running 0 ∧ (placed 0x00EE).fetchWord = some 0x00EE ∧
      ∃ t, step (placed 0x00EE) = .next t ∧ t.fault = some ⟨.stackUnderflow, 0x200, 0x00EE⟩ :=
  ⟨by decide, by decide, _, rfl, by decide⟩

theorem test_witness_ResetEvent :
    (halted.setInbox [.reset, .tick 1]).tick = none ∧
      (halted.setInbox [.reset, .tick 1]).inbox = .reset :: [.tick 1] := by decide

theorem test_witness_LoadProgramFits :
    (List.replicate 3584 (0xAA : Byte)).length ≤ 3584 ∧ State.reset.tick = none ∧
      (State.reset.setInbox [.loadProgram (List.replicate 3584 0xAA)]).inbox =
        .loadProgram (List.replicate 3584 0xAA) :: [] := ⟨by rw [List.length_replicate], rfl, rfl⟩

theorem test_witness_LoadProgramOverflow :
    3584 < (List.replicate 3585 (0xAA : Byte)).length ∧ State.reset.tick = none ∧
      (State.reset.setInbox [.loadProgram (List.replicate 3585 0xAA)]).inbox =
        .loadProgram (List.replicate 3585 0xAA) :: [] := ⟨by rw [List.length_replicate]; decide, rfl, rfl⟩

theorem test_witness_KeyDown :
    ((paused 0).setInbox [.keyDown 15]).tick = none ∧
      ((paused 0).setInbox [.keyDown 15]).inbox = .keyDown 15 :: [] ∧
      ((paused 0).setInbox [.keyDown 15]).keyWait = some 0 ∧ (0 : Key) ≠ 15 := by decide

theorem test_witness_KeyUp :
    ((paused 0).setInbox [.keyUp 0]).tick = none ∧ ((paused 0).setInbox [.keyUp 0]).inbox = .keyUp 0 :: [] := by
  decide

theorem test_witness_TickBegins :
    (State.reset.setInbox [.tick 0]).tick = none ∧ (State.reset.setInbox [.tick 0]).inbox = .tick 0 :: [] := by decide

theorem test_witness_RetPops : (State.reset.setStack [0x202, 0x206]).stack = [0x202] ++ [0x206] := by decide

theorem test_witness_CallPushes : (State.reset.setStack (List.replicate 15 0x202)).stack.length < 16 := by decide

theorem test_witness_StackFaults :
    State.reset.stack = [] ∧ 16 ≤ (State.reset.setStack (List.replicate 16 0x202)).stack.length := by decide

/-- The clauses of FaultCodes: a fault and none, an illegal word, the empty and the full stack, the least load
that does not fit. -/
theorem test_witness_FaultCodes :
    State.reset.fault = none ∧ halted.fault ≠ none ∧ (placed 0x5121).Running 0 ∧
      (placed 0x5121).fetchWord = some 0x5121 ∧ wordWellFormed 0x5121 = false ∧ State.reset.stack = [] ∧
      16 ≤ (State.reset.setStack (List.replicate 16 0x202)).stack.length ∧ State.reset.tick = none ∧
      (State.reset.setInbox [.loadProgram (List.replicate 3585 0xAA)]).inbox =
        .loadProgram (List.replicate 3585 0xAA) :: [] ∧ 3584 < (List.replicate 3585 (0xAA : Byte)).length :=
  ⟨by decide, by decide, by decide, by decide, by decide, by decide, by decide, rfl, rfl,
    by rw [List.length_replicate]; decide⟩

/-- Each clause of the flag statements at a boundary: a carry and none, VF as X and not. -/
theorem test_witness_flag_clauses :
    (1 : Reg) ≠ VF ∧ 255 < ((withV [(1, 255), (2, 1)]).getV 1).toNat + ((withV [(1, 255), (2, 1)]).getV 2).toNat ∧
      ¬ 255 < ((withV [(1, 255)]).getV 1).toNat + ((withV [(1, 255)]).getV 2).toNat := by decide

/-- The least and the greatest low nibble that make 5XYn illegal. -/
theorem test_witness_SkipsOnRegisters : (1 : Nibble) ≠ 0 ∧ (15 : Nibble) ≠ 0 := by decide

theorem test_witness_LdBStoresDigits : (State.reset.setIndex 0xFFD).index.toNat ≤ 0xFFD := by decide

theorem test_witness_StoreRegsStores : (State.reset.setIndex 0xFF0).index.toNat + (15 : Reg).val ≤ 0xFFF := by decide

theorem test_witness_LoadRegsLoads : (State.reset.setIndex 0xFFF).index.toNat + (0 : Reg).val ≤ 0xFFF := by decide

theorem test_witness_DrwDraws :
    ((0 : Nibble).toNat = 0 ∨ (State.reset.setIndex 0xFFF0).index.toNat + ((0 : Nibble).toNat - 1) ≤ 0xFFF) ∧
      ((1 : Nibble).toNat = 0 ∨ (State.reset.setIndex 0xFFF).index.toNat + ((1 : Nibble).toNat - 1) ≤ 0xFFF) := by
  decide

/-- A pixel under the sprite and one outside it: column 0 of the row 0x80 at the origin. -/
theorem test_witness_DrwDraws_clauses :
    (withMem 0x300 [0x80] (State.reset.setIndex 0x300)).spriteCovers 0 0 1 (0, 0) ∧
      ¬ (withMem 0x300 [0x80] (State.reset.setIndex 0x300)).spriteCovers 0 0 1 (1, 0) := by
  refine ⟨⟨0, 0, by decide, by decide, by decide, by decide⟩, ?_⟩
  rintro ⟨row, col, hr, hc, hb, hp⟩
  have hr0 : row = 0 := by omega
  subst hr0
  have key : ∀ c < 8, ((withMem 0x300 [0x80] (State.reset.setIndex 0x300)).peek
      (effAddr (State.reset.setIndex 0x300).index 0)).getLsbD (7 - c) = true → c = 0 := by decide
  have hc0 := key col hc hb
  subst hc0
  exact absurd hp (by decide)

theorem test_witness_DrawTwiceRestores :
    (0 : Reg) ≠ VF ∧ (1 : Reg) ≠ VF ∧ ∃ t, exec (.drw 0 1 1) State.reset = .next t := ⟨by decide, by decide, _, rfl⟩

theorem test_witness_SkipsOnKey :
    ((withV [(1, 15)]).getV 1).toNat = (15 : Key).val ∧ ((withV [(1, 0)]).getV 1).toNat = (0 : Key).val := by decide

theorem test_witness_KeyIndexOutOfRange : 15 < ((withV [(1, 16)]).getV 1).toNat := by decide

theorem test_witness_StepKeepsInv :
    (placed 0x2300).Inv ∧ ∃ t, step (placed 0x2300) = .next t ∧ t.stack = [0x202] := ⟨by decide, _, rfl, by decide⟩

theorem test_witness_StepKeepsPcBound :
    (placed 0xBFFF).PcBound ∧ ∃ t, step (placed 0xBFFF) = .next t ∧ t.pc = 0xFFF :=
  ⟨⟨by decide, nofun⟩, _, rfl, by decide⟩

theorem test_witness_CanonicalMemoryUnique :
    Memory.wf Config.defaultFont [(0x300, 1), (0xFFF, 2)] ∧
      ∀ a, Memory.read Config.defaultFont [(0x300, 1), (0xFFF, 2)] a =
        Memory.read Config.defaultFont [(0x300, 1), (0xFFF, 2)] a := ⟨by decide, fun _ => rfl⟩

theorem test_witness_InstructionWriters :
    (∃ t, exec (.ldDtVx 1) (withV [(1, 7)]) = .next t ∧ t.dt ≠ (withV [(1, 7)]).dt) ∧
      (∃ t, exec .ret State.reset = .next t ∧ t.fault ≠ State.reset.fault) ∧
      (∃ t, exec (.ldI 5) State.reset = .next t ∧ t.index ≠ State.reset.index) ∧
      (∃ t, exec (.ldVxK 1) State.reset = .next t ∧ t.keyWait ≠ State.reset.keyWait) ∧
      (∃ t, exec (.rnd 1 0) State.reset = .next t ∧ t.draws ≠ State.reset.draws) :=
  ⟨⟨_, rfl, by decide⟩, ⟨_, rfl, by decide⟩, ⟨_, rfl, by decide⟩, ⟨_, rfl, by decide⟩, ⟨_, rfl, by decide⟩⟩

theorem test_witness_InstructionWriters_memory :
    (∃ t, exec (.storeRegs 0) ((withV [(0, 1)]).setIndex 0x300) = .next t ∧
        t.peek 0x300 ≠ ((withV [(0, 1)]).setIndex 0x300).peek 0x300) ∧
      (∃ t, exec (.ldStVx 1) (withV [(1, 7)]) = .next t ∧ t.st ≠ (withV [(1, 7)]).st) ∧
      (∃ t, exec .cls (State.reset.setFb (toggle blankScreen (5, 6))) = .next t ∧
        pixel t.fb (5, 6) ≠ pixel (State.reset.setFb (toggle blankScreen (5, 6))).fb (5, 6)) :=
  ⟨⟨_, rfl, by decide⟩, ⟨_, rfl, by decide⟩, ⟨_, rfl, by decide⟩⟩

theorem test_witness_FlagWriters :
    (∃ t, exec (.addReg 1 2) (withV [(1, 255), (2, 1)]) = .next t ∧
        t.getV VF ≠ (withV [(1, 255), (2, 1)]).getV VF) ∧
      (∃ t, exec (.ldImm VF 3) State.reset = .next t ∧ t.getV VF ≠ State.reset.getV VF) :=
  ⟨⟨_, rfl, by decide⟩, ⟨_, rfl, by decide⟩⟩

theorem test_witness_OnlyKeySkipsReadKeys : ∀ x, Instr.ldVxK 1 ≠ .skp x ∧ Instr.ldVxK 1 ≠ .sknp x :=
  fun _ => ⟨nofun, nofun⟩

theorem test_witness_FaultsOnlyFrom :
    exec (.ldB 1) (State.reset.setIndex 0xFFE) = .fault .memOutOfRange ∧
      exec (.skp 1) (withV [(1, 16)]) = .fault .keyIndexOutOfRange := ⟨rfl, rfl⟩

end Sys2Proof.Tests
end

section
/-! PROOFS. The frame of every instruction: what each row of the opcode map may write, as one table, and that no
instruction writes anything else (`00_scope.md` R10, decision D21). -/

namespace Sys2Proof.Machine

/-! ### Rules of `Frame`, one for each operation on the state -/

section FrameRules

variable {regs : List Reg} {parts : List Part} {addrs : List Nat} {s t u : State}

theorem Part.kept_trans {p : Part} (hst : p.kept s t) (htu : p.kept t u) : p.kept s u := by
  cases p <;> exact Eq.trans htu hst

/-- Two changes inside one frame make one change inside it. -/
theorem Frame.trans (hst : Frame regs parts addrs s t) (htu : Frame regs parts addrs t u) :
    Frame regs parts addrs s u where
  regs r hr := (htu.regs r hr).trans (hst.regs r hr)
  parts p hp := Part.kept_trans (hst.parts p hp) (htu.parts p hp)
  mem a ha := (htu.mem a ha).trans (hst.mem a ha)

theorem frame_setV {r : Reg} (h : r ∈ regs) (b : Byte) : Frame regs parts addrs s (s.setV r b) where
  regs q hq := State.getV_setV_other s b (fun e => hq (e ▸ h))
  parts p _ := by cases p <;> rfl
  mem _ _ := rfl

theorem frame_setFirstV {bs : List Byte} (h : ∀ r : Reg, r.val < bs.length → r ∈ regs) :
    Frame regs parts addrs s (s.setFirstV bs) where
  regs r hr := by
    have hlen : bs.length ≤ r.val := Nat.le_of_not_lt (fun hlt => hr (h r hlt))
    simp [List.getElem?_eq_none hlen]
  parts p _ := by cases p <;> simp [Part.kept]
  mem a _ := State.setFirstV_peek s bs a

theorem frame_setIndex (h : .index ∈ parts) (a : Word) : Frame regs parts addrs s (s.setIndex a) where
  regs _ _ := rfl
  parts p hp := by
    cases p with
    | index => exact absurd h hp
    | _ => rfl
  mem _ _ := rfl

theorem frame_setPc (h : .pc ∈ parts) (a : Word) : Frame regs parts addrs s (s.setPc a) where
  regs _ _ := rfl
  parts p hp := by
    cases p with
    | pc => exact absurd h hp
    | _ => rfl
  mem _ _ := rfl

theorem frame_setDt (h : .dt ∈ parts) (b : Byte) : Frame regs parts addrs s (s.setDt b) where
  regs _ _ := rfl
  parts p hp := by
    cases p with
    | dt => exact absurd h hp
    | _ => rfl
  mem _ _ := rfl

theorem frame_setSt (h : .st ∈ parts) (b : Byte) : Frame regs parts addrs s (s.setSt b) where
  regs _ _ := rfl
  parts p hp := by
    cases p with
    | st => exact absurd h hp
    | _ => rfl
  mem _ _ := rfl

theorem frame_setFb (h : .fb ∈ parts) (fb : Screen) : Frame regs parts addrs s (s.setFb fb) where
  regs _ _ := rfl
  parts p hp := by
    cases p with
    | fb => exact absurd h hp
    | _ => rfl
  mem _ _ := rfl

theorem frame_setStack (h : .stack ∈ parts) (l : List Word) : Frame regs parts addrs s (s.setStack l) where
  regs _ _ := rfl
  parts p hp := by
    cases p with
    | stack => exact absurd h hp
    | _ => rfl
  mem _ _ := rfl

theorem frame_setKeyWait (h : .keyWait ∈ parts) (k : Option Reg) : Frame regs parts addrs s (s.setKeyWait k) where
  regs _ _ := rfl
  parts p hp := by
    cases p with
    | keyWait => exact absurd h hp
    | _ => rfl
  mem _ _ := rfl

theorem frame_useDraw (h : .draws ∈ parts) : Frame regs parts addrs s s.useDraw where
  regs _ _ := rfl
  parts p hp := by
    cases p with
    | draws => exact absurd h hp
    | _ => rfl
  mem _ _ := rfl

/-- Fault entry writes the latch and ends the tick (`60_exceptions.md` R208). -/
theorem frame_raiseIn (hf : .fault ∈ parts) (ht : .tick ∈ parts) (c : Cause) (i : Instr) :
    Frame regs parts addrs s (s.raiseIn c i) where
  regs _ _ := rfl
  parts p hp := by
    cases p with
    | fault => exact absurd hf hp
    | tick => exact absurd ht hp
    | _ => rfl
  mem _ _ := rfl

theorem frame_skipIf (h : .pc ∈ parts) (c : Bool) : Frame regs parts addrs s (s.skipIf c) := by
  rw [State.skipIf_eq]
  exact frame_setPc h _

theorem frame_drawSprite (hv : VF ∈ regs) (hf : .fb ∈ parts) (x0 y0 : Byte) (bytes : List Byte) :
    Frame regs parts addrs s (s.drawSprite x0 y0 bytes) :=
  (frame_setFb hf _).trans (frame_setV hv _)

theorem mem_effAddrs {index : Word} {n a : Nat} :
    a ∈ effAddrs index n ↔ index.toNat ≤ a ∧ a < index.toNat + n := by
  simp only [effAddrs, effAddr, List.mem_map, List.mem_range]
  constructor
  · rintro ⟨k, hk, rfl⟩
    omega
  · rintro ⟨hle, hlt⟩
    exact ⟨a - index.toNat, by omega, by omega⟩

/-- Storing bytes through I writes the addresses that access reaches and no other. -/
theorem frame_writeAll (bs : List Byte) :
    Frame regs parts (effAddrs s.index bs.length) s
      (s.setMem (Memory.writeAll s.font s.mem s.index.toNat bs)) where
  regs _ _ := rfl
  parts p _ := by cases p <;> rfl
  mem a ha := by
    rw [State.setMem_peek, Memory.read_writeAll, dif_neg (fun hin => ha (mem_effAddrs.mpr hin))]
    rfl

end FrameRules

/-! ### The table of writers -/

/-- What an instruction may write: registers, parts of the state, and a number of memory bytes from I on. -/
structure Footprint where
  regs     : List Reg := []
  parts    : List Part := []
  memBytes : Nat := 0

/-- The footprint of each row of the opcode map (`30_encoding.md` R74). 00EE and 2NNN write the latch and the
tick when they raise (`60_exceptions.md` R202, R203). -/
def footprint : Instr → Footprint
  | .cls => { parts := [.fb] }
  | .ret | .call _ => { parts := [.pc, .stack, .fault, .tick] }
  | .jp _ | .jpV0 _ | .seImm _ _ | .sneImm _ _ | .seReg _ _ | .sneReg _ _ | .skp _ | .sknp _ => { parts := [.pc] }
  | .ldImm x _ | .addImm x _ | .ldReg x _ | .orReg x _ | .andReg x _ | .xorReg x _ | .ldVxDt x => { regs := [x] }
  | .addReg x _ | .subReg x _ | .shr x _ | .subnReg x _ | .shl x _ => { regs := [x, VF] }
  | .rnd x _ => { regs := [x], parts := [.draws] }
  | .drw _ _ _ => { regs := [VF], parts := [.fb] }
  | .ldI _ | .addI _ | .ldF _ => { parts := [.index] }
  | .ldVxK _ => { parts := [.keyWait] }
  | .ldDtVx _ => { parts := [.dt] }
  | .ldStVx _ => { parts := [.st] }
  | .ldB _ => { memBytes := 3 }
  | .storeRegs x => { memBytes := x.val + 1 }
  | .loadRegs x => { regs := firstRegs x }

/-- The frame a footprint gives in a state. -/
abbrev Footprint.Covers (f : Footprint) (s t : State) : Prop :=
  Frame f.regs f.parts (effAddrs s.index f.memBytes) s t

theorem mem_firstRegs {x r : Reg} : r ∈ firstRegs x ↔ r ≤ x := by simp [firstRegs]

/-- An instruction whose two steps write the flag and then its destination (`42_alu.md` R143). -/
theorem frame_flag_then_dest {s : State} (x : Reg) (flag b : Byte) {addrs : List Nat} :
    Frame [x, VF] [] addrs s ((s.setV VF flag).setV x b) :=
  (frame_setV (by simp) flag).trans (frame_setV (by simp) b)

theorem execRet_frame {s t : State} (h : execRet s = .next t) : (footprint .ret).Covers s t := by
  unfold execRet at h
  split at h
  case h_1 v s' hpop =>
    rcases State.pop_cases hpop with ⟨-, hnone⟩ | ⟨l, w, -, hsome⟩
    · cases hnone
    · cases hsome
      cases h
      exact (frame_setStack (by simp [footprint]) l).trans (frame_setPc (by simp [footprint]) v)
  case h_2 =>
    cases h
    exact frame_raiseIn (by simp [footprint]) (by simp [footprint]) _ _

theorem execCall_frame {nnn : Addr} {s t : State} (h : execCall nnn s = .next t) :
    (footprint (.call nnn)).Covers s t := by
  rw [execCall_eq] at h
  split at h <;> cases h
  · exact (frame_setStack (by simp [footprint]) _).trans (frame_setPc (by simp [footprint]) _)
  · exact frame_raiseIn (by simp [footprint]) (by simp [footprint]) _ _

theorem execStoreRegs_frame {x : Reg} {s t : State} (h : execStoreRegs x s = .next t) :
    (footprint (.storeRegs x)).Covers s t := by
  have hlen : (s.firstV (x.val + 1)).length = x.val + 1 := State.length_firstV s _ (by omega)
  rw [execStoreRegs_eq] at h
  split at h <;> cases h
  have hw := frame_writeAll (regs := []) (parts := []) (s := s) (s.firstV (x.val + 1))
  rwa [hlen] at hw

theorem execLoadRegs_frame {x : Reg} {s t : State} (h : execLoadRegs x s = .next t) :
    (footprint (.loadRegs x)).Covers s t := by
  rw [execLoadRegs_eq] at h
  split at h <;> cases h
  refine frame_setFirstV (fun r hr => mem_firstRegs.mpr ?_)
  rw [List.length_map, List.length_range] at hr
  exact Fin.le_def.mpr (by omega)

/-- Every instruction that completes changes nothing outside its footprint. -/
theorem exec_frame {i : Instr} {s t : State} (h : exec i s = .next t) : (footprint i).Covers s t := by
  cases i with
  | ret => exact execRet_frame h
  | call nnn => exact execCall_frame h
  | storeRegs x => exact execStoreRegs_frame h
  | loadRegs x => exact execLoadRegs_frame h
  | ldB x =>
    simp only [exec, execLdB_eq] at h
    split at h <;> cases h
    exact frame_writeAll (decimalDigits _)
  | drw x y n =>
    simp only [exec, execDrw_eq] at h
    split at h <;> cases h
    exact (frame_setV (by simp [footprint]) 0).trans
      (frame_drawSprite (by simp [footprint]) (by simp [footprint]) _ _ _)
  | skp x | sknp x =>
    simp only [exec, execSkp, execSknp] at h
    split at h <;> cases h
    exact frame_skipIf (by simp [footprint]) _
  | cls => cases h; exact frame_setFb (by simp [footprint]) _
  | jp nnn | jpV0 nnn => cases h; exact frame_setPc (by simp [footprint]) _
  | seImm x kk | sneImm x kk | seReg x y | sneReg x y => cases h; exact frame_skipIf (by simp [footprint]) _
  | ldImm x kk | addImm x kk | ldReg x y | orReg x y | andReg x y | xorReg x y | ldVxDt x =>
    cases h
    exact frame_setV (by simp [footprint]) _
  | addReg x y | subReg x y | shr x y | subnReg x y | shl x y => cases h; exact frame_flag_then_dest x _ _
  | rnd x kk =>
    cases h
    exact (frame_useDraw (by simp [footprint])).trans (frame_setV (by simp [footprint]) _)
  | ldI nnn | addI x | ldF x => cases h; exact frame_setIndex (by simp [footprint]) _
  | ldVxK x => cases h; exact frame_setKeyWait (by simp [footprint]) _
  | ldDtVx x => cases h; exact frame_setDt (by simp [footprint]) _
  | ldStVx x => cases h; exact frame_setSt (by simp [footprint]) _

/-! ### Who writes a part: the table read by its columns -/

/-- A part that changed stands in the instruction's footprint. -/
theorem mem_footprint_of_changed {p : Part} {i : Instr} {s t : State} (h : exec i s = .next t)
    (hc : ¬p.kept s t) : p ∈ (footprint i).parts :=
  by_contra fun hp => hc ((exec_frame h).parts p hp)

/-- The parts some instruction writes: all but the key flags, the outputs, the host's events and the font. -/
def writableParts : List Part := [.index, .pc, .stack, .dt, .st, .fb, .keyWait, .fault, .tick, .draws]

theorem footprint_parts_subset (i : Instr) : (footprint i).parts ⊆ writableParts := by
  cases i <;> simp [footprint, writableParts]

/-- A part that no instruction writes is kept by every instruction. -/
theorem kept_of_not_writable {p : Part} (hp : p ∉ writableParts) {i : Instr} {s t : State}
    (h : exec i s = .next t) : p.kept s t :=
  (exec_frame h).parts p (fun hm => hp (footprint_parts_subset i hm))

theorem fb_writer {i : Instr} (h : .fb ∈ (footprint i).parts) : i = .cls ∨ ∃ x y n, i = .drw x y n := by
  cases i with
  | cls => exact .inl rfl
  | drw x y n => exact .inr ⟨x, y, n, rfl⟩
  | _ => simp [footprint] at h

theorem dt_writer {i : Instr} (h : .dt ∈ (footprint i).parts) : ∃ x, i = .ldDtVx x := by
  cases i with
  | ldDtVx x => exact ⟨x, rfl⟩
  | _ => simp [footprint] at h

theorem st_writer {i : Instr} (h : .st ∈ (footprint i).parts) : ∃ x, i = .ldStVx x := by
  cases i with
  | ldStVx x => exact ⟨x, rfl⟩
  | _ => simp [footprint] at h

theorem stack_or_fault_writer {i : Instr} (h : .stack ∈ (footprint i).parts ∨ .fault ∈ (footprint i).parts) :
    i = .ret ∨ ∃ nnn, i = .call nnn := by
  cases i with
  | ret => exact .inl rfl
  | call nnn => exact .inr ⟨nnn, rfl⟩
  | _ => simp [footprint] at h

theorem index_writer {i : Instr} (h : .index ∈ (footprint i).parts) :
    (∃ nnn, i = .ldI nnn) ∨ (∃ x, i = .addI x) ∨ ∃ x, i = .ldF x := by
  cases i with
  | ldI nnn => exact .inl ⟨nnn, rfl⟩
  | addI x => exact .inr (.inl ⟨x, rfl⟩)
  | ldF x => exact .inr (.inr ⟨x, rfl⟩)
  | _ => simp [footprint] at h

theorem keyWait_writer {i : Instr} (h : .keyWait ∈ (footprint i).parts) : ∃ x, i = .ldVxK x := by
  cases i with
  | ldVxK x => exact ⟨x, rfl⟩
  | _ => simp [footprint] at h

theorem draws_writer {i : Instr} (h : .draws ∈ (footprint i).parts) : ∃ x kk, i = .rnd x kk := by
  cases i with
  | rnd x kk => exact ⟨x, kk, rfl⟩
  | _ => simp [footprint] at h

theorem mem_writer {i : Instr} (h : (footprint i).memBytes ≠ 0) : (∃ x, i = .ldB x) ∨ ∃ x, i = .storeRegs x := by
  cases i with
  | ldB x => exact .inl ⟨x, rfl⟩
  | storeRegs x => exact .inr ⟨x, rfl⟩
  | _ => exact absurd rfl h

/-- A byte of memory that changed: the instruction's footprint has bytes of memory. -/
theorem memBytes_ne_zero_of_changed {i : Instr} {s t : State} (h : exec i s = .next t) {a : Nat}
    (hc : t.peek a ≠ s.peek a) : (footprint i).memBytes ≠ 0 := by
  intro hz
  refine hc ((exec_frame h).mem a ?_)
  simp [hz, effAddrs]

/-- Settles O54: every changed part stands in the instruction's footprint, whose columns name the writers. -/
theorem instructionWriters : Obligations.InstructionWriters := by
  unfold Obligations.InstructionWriters
  intro i s t h
  have outside (p : Part) (hp : p ∉ writableParts) : p.kept s t := kept_of_not_writable hp h
  have changed (p : Part) : ¬p.kept s t → p ∈ (footprint i).parts := mem_footprint_of_changed h
  refine ⟨⟨outside .keys (by decide), outside .tone (by decide), outside .present (by decide),
    outside .reply (by decide), outside .inbox (by decide), outside .font (by decide)⟩, ?_⟩
  exact ⟨fun hc => fb_writer (changed .fb hc),
    fun hc => dt_writer (changed .dt hc),
    fun hc => st_writer (changed .st hc),
    fun hc => stack_or_fault_writer (hc.imp (changed .stack) (changed .fault)),
    fun hc => index_writer (changed .index hc),
    fun ⟨_, hc⟩ => mem_writer (memBytes_ne_zero_of_changed h hc),
    fun hc => keyWait_writer (changed .keyWait hc),
    fun hc => draws_writer (changed .draws hc)⟩

end Sys2Proof.Machine
end

section
/-! PROOFS. The range of pc and of the return addresses (`10_state.md` R23, `41_control_transfer.md` R113, R118):
a legal fetch leaves pc in the range of the return addresses, and from there no instruction leaves the bounds. -/

namespace Sys2Proof.Machine

/-- The range of the return addresses: what pc holds after a legal fetch (`41_control_transfer.md` R113). -/
abbrev IsReturnAddr (a : Word) : Prop := 2 ≤ a.toNat ∧ a.toNat ≤ 0x1000

/-- The bounds speak of pc and of the stack only. -/
theorem State.PcBound.of_same {s t : State} (h : s.PcBound) (hpc : t.pc = s.pc) (hstack : t.stack = s.stack) :
    t.PcBound := by
  rwa [State.PcBound, hpc, hstack]

theorem State.reset_pcBound : State.reset.PcBound := ⟨by decide, fun _ ha => nomatch ha⟩

/-! ### Instructions -/

/-- What 00EE can leave: the last entry popped into pc, or StackUnderflow. -/
theorem execRet_cases {s t : State} (h : execRet s = .next t) :
    (∃ l v, s.stack = l ++ [v] ∧ t = (s.setStack l).setPc v) ∨ t = s.raiseIn .stackUnderflow .ret := by
  unfold execRet at h
  split at h <;> cases h
  case h_1 hpop =>
    rcases State.pop_cases hpop with ⟨-, hnone⟩ | ⟨l, _, hs, hsome⟩
    · cases hnone
    · cases hsome
      exact .inl ⟨l, _, hs, rfl⟩
  case h_2 => exact .inr rfl

theorem toNat_zextAddr_le (nnn : Addr) : (zextAddr nnn).toNat ≤ 0xFFF := by
  rw [zextAddr, BitVec.toNat_setWidth]
  omega

/-- The target of BNNN, never reduced modulo 65536 (`41_control_transfer.md` R118). -/
theorem toNat_zextAddr_add_zextByte_le (nnn : Addr) (b : Byte) : (zextAddr nnn + zextByte b).toNat ≤ 0x10FE := by
  have hb : (zextByte b).toNat ≤ 0xFF := by
    rw [zextByte, BitVec.toNat_setWidth]
    omega
  have hn := toNat_zextAddr_le nnn
  rw [BitVec.toNat_add]
  omega

/-- Moving over one instruction does not wrap below the top of the address space. -/
theorem toNat_add_two {a : Word} (h : a.toNat ≤ 0x1000) : (a + 2).toNat = a.toNat + 2 :=
  BitVec.toNat_add_of_lt (by show a.toNat + 2 < 2 ^ 16; omega)

theorem State.skipIf_pc_le {s : State} (h : IsReturnAddr s.pc) (c : Bool) : (s.skipIf c).pc.toNat ≤ 0x10FE := by
  obtain ⟨-, hle⟩ := h
  cases c with
  | false => exact hle.trans (by decide)
  | true =>
    rw [State.skipIf_true, State.setPc_pc, toNat_add_two hle]
    omega

/-- After a legal fetch, no instruction leaves the bounds. -/
theorem exec_keeps_pcBound {i : Instr} {s t : State} (hpc : IsReturnAddr s.pc)
    (hstack : ∀ a ∈ s.stack, IsReturnAddr a) (h : exec i s = .next t) : t.PcBound := by
  have hle : s.pc.toNat ≤ 0x10FE := hpc.2.trans (by decide)
  cases i with
  | ret =>
    rcases execRet_cases h with ⟨l, v, hs, rfl⟩ | rfl
    · rw [hs] at hstack
      exact ⟨(hstack v (by simp)).2.trans (by decide), fun a ha => hstack a (List.mem_append_left _ ha)⟩
    · exact ⟨hle, hstack⟩
  | call nnn =>
    simp only [exec, execCall_eq] at h
    split at h <;> cases h
    · refine ⟨(toNat_zextAddr_le nnn).trans (by decide), fun a ha => ?_⟩
      rcases List.mem_append.mp ha with ha | ha
      · exact hstack a ha
      · exact List.mem_singleton.mp ha ▸ hpc
    · exact ⟨hle, hstack⟩
  | jp nnn =>
    cases h
    exact ⟨(toNat_zextAddr_le nnn).trans (by decide), hstack⟩
  | jpV0 nnn =>
    cases h
    exact ⟨toNat_zextAddr_add_zextByte_le nnn _, hstack⟩
  | seImm x kk | sneImm x kk | seReg x y | sneReg x y =>
    cases h
    exact ⟨State.skipIf_pc_le hpc _, by simpa [State.skipIf_eq] using hstack⟩
  | skp x | sknp x =>
    simp only [exec, execSkp, execSknp] at h
    split at h <;> cases h
    exact ⟨State.skipIf_pc_le hpc _, by simpa [State.skipIf_eq] using hstack⟩
  | _ =>
    have hf := exec_frame h
    exact State.PcBound.of_same ⟨hle, hstack⟩ (hf.parts .pc (by simp [footprint]))
      (hf.parts .stack (by simp [footprint]))

/-! ### The instruction cycle and the host's events -/

/-- A word is fetched only with pc at most 0xFFE. -/
theorem State.pc_le_of_fetchWord {s : State} {w : Word} (h : s.fetchWord = some w) : s.pc.toNat ≤ 0xFFE := by
  unfold State.fetchWord at h
  split at h
  · assumption
  · cases h

theorem State.advance_pc_isReturnAddr {s : State} {w : Word} (h : s.fetchWord = some w) (k : Nat) :
    IsReturnAddr (s.advance k).pc := by
  have hle := State.pc_le_of_fetchWord h
  have hpc : (s.advance k).pc.toNat = s.pc.toNat + 2 := toNat_add_two (hle.trans (by decide))
  exact ⟨by omega, by omega⟩

theorem cpuStep_keeps_pcBound {k : Nat} {s t : State} (hs : s.PcBound) (h : cpuStep k s = .next t) : t.PcBound := by
  obtain ⟨-, hstack⟩ := hs
  rcases cpuStep_cases h with ⟨-, ho⟩ | ⟨w, i, hw, -, ho⟩ | ⟨w, e, hw, -, ho⟩
  · cases ho
  · exact exec_keeps_pcBound (State.advance_pc_isReturnAddr hw k) hstack ho.symm
  · cases ho
    exact ⟨(State.advance_pc_isReturnAddr hw k).2.trans (by decide), hstack⟩

theorem applyEvent_keeps_pcBound (e : Event) {s : State} (hs : s.PcBound) : (applyEvent e s).PcBound := by
  cases e with
  | reset => exact State.reset_pcBound
  | loadProgram bytes =>
    simp only [applyEvent, eventLoad]
    split <;> exact hs
  | tick n =>
    simp only [applyEvent, eventTick]
    split <;> exact hs
  | keyDown code =>
    simp only [applyEvent, eventKeyDown, State.fulfilKeyWait]
    split <;> exact hs
  | keyUp code => exact hs

theorem hostStep_keeps_pcBound {s : State} (hs : s.PcBound) : (hostStep s).PcBound := by
  rcases hostStep_cases s with ⟨-, he⟩ | ⟨e, rest, -, he⟩ <;> rw [he]
  · exact hs
  · exact applyEvent_keeps_pcBound e hs

/-- Settles O52, by the cases of a step: only an instruction moves pc or the stack, and it starts from a legal
fetch. -/
theorem stepKeepsPcBound : Obligations.StepKeepsPcBound := by
  unfold Obligations.StepKeepsPcBound
  intro s t hs h
  have hq : s.quiet.PcBound := hs
  rcases step_cases h with ⟨-, ho⟩ | ⟨k, -, -, ho⟩ | ⟨k, -, -, -, ho⟩ | ⟨k, -, -, -, ho⟩
  · cases ho
    exact hostStep_keeps_pcBound hq
  · cases ho
    exact hs
  · cases ho
    exact hq.of_same (endTick_pc _) (endTick_stack _)
  · exact cpuStep_keeps_pcBound hq ho.symm

end Sys2Proof.Machine
end

section
/-! PROOFS. The canonical form of memory is unique (log entry 6): what a canonical list holds is what it reads
as, and a strictly rising list is fixed by its entries. -/

namespace Sys2Proof.Machine

/-- In a rising list the listed byte of an address is that of its one entry. -/
theorem Memory.lookup_eq_some_iff {m : Memory} (h : m.Pairwise (fun c d => c.1 < d.1)) (a : Nat) (v : Byte) :
    Memory.lookup m a = some v ↔ (a, v) ∈ m := by
  induction m with
  | nil => simp [Memory.lookup]
  | cons c rest ih =>
    obtain ⟨b, w⟩ := c
    obtain ⟨hb, hrest⟩ := List.pairwise_cons.mp h
    rw [Memory.lookup, List.mem_cons]
    by_cases hab : a = b
    · subst hab
      have hnot : (a, v) ∉ rest := fun hm => Nat.lt_irrefl a (hb (a, v) hm)
      simp [hnot, eq_comm]
    · simp [hab, ih hrest]

/-- A canonical memory lists exactly the bytes that differ from what an unlisted address reads as. -/
theorem Memory.mem_iff_read {font : Font} {m : Memory} (h : Memory.wf font m) (a : Nat) (v : Byte) :
    (a, v) ∈ m ↔ Memory.read font m a = v ∧ v ≠ unlistedByte font a := by
  obtain ⟨hsorted, hcells⟩ := h
  constructor
  · intro hm
    have hl := (Memory.lookup_eq_some_iff hsorted a v).mpr hm
    exact ⟨by rw [Memory.read, hl, Option.getD_some], (hcells _ hm).2⟩
  · rintro ⟨hread, hne⟩
    rw [← Memory.lookup_eq_some_iff hsorted]
    cases hl : Memory.lookup m a with
    | none =>
      rw [Memory.read, hl, Option.getD_none] at hread
      exact absurd hread.symm hne
    | some w =>
      rw [Memory.read, hl, Option.getD_some] at hread
      rw [hread]

/-- Settles O53: equal reads give equal entries, and a strictly rising list is fixed by its entries. -/
theorem canonicalMemoryUnique : Obligations.CanonicalMemoryUnique := by
  unfold Obligations.CanonicalMemoryUnique
  intro font m m' hm hm' hread
  have hmem : ∀ c : Host.Cell, c ∈ m ↔ c ∈ m' := fun (a, v) => by
    rw [Memory.mem_iff_read hm, Memory.mem_iff_read hm', hread]
  have : Std.Asymm (fun c d : Host.Cell => c.1 < d.1) := ⟨fun _ _ => Nat.lt_asymm⟩
  exact hm.1.eq_of_mem_iff hm'.1 hmem

end Sys2Proof.Machine
end

section
/-! PROOFS. Who writes VF (`10_state.md` R21, decision D21): the registers' column of the table of writers. -/

namespace Sys2Proof.Machine

/-- A register that changed stands in the instruction's footprint. -/
theorem mem_footprint_regs_of_changed {r : Reg} {i : Instr} {s t : State} (h : exec i s = .next t)
    (hc : t.getV r ≠ s.getV r) : r ∈ (footprint i).regs :=
  by_contra fun hr => hc ((exec_frame h).regs r hr)

/-- FX65 reaches VF only with X = 0xF. -/
theorem VF_mem_firstRegs {x : Reg} : VF ∈ firstRegs x ↔ x = VF := by
  rw [mem_firstRegs]
  exact Fin.last_le_iff

/-- The instructions that define a flag (`10_state.md` R21). -/
def DefinesFlag (i : Instr) : Prop :=
  (∃ x y, i = .addReg x y ∨ i = .subReg x y ∨ i = .shr x y ∨ i = .subnReg x y ∨ i = .shl x y) ∨
    ∃ x y n, i = .drw x y n

/-- The instructions that write their destination and no flag, with VF named as that destination. -/
def NamesVF (i : Instr) : Prop :=
  (∃ kk, i = .ldImm VF kk ∨ i = .addImm VF kk ∨ i = .rnd VF kk) ∨
    (∃ y, i = .ldReg VF y ∨ i = .orReg VF y ∨ i = .andReg VF y ∨ i = .xorReg VF y) ∨
    i = .ldVxDt VF ∨ i = .loadRegs VF

theorem VF_writer {i : Instr} (h : VF ∈ (footprint i).regs) : DefinesFlag i ∨ NamesVF i := by
  cases i with
  | addReg x y | subReg x y | shr x y | subnReg x y | shl x y => exact .inl (.inl ⟨x, y, by simp⟩)
  | drw x y n => exact .inl (.inr ⟨x, y, n, rfl⟩)
  | ldImm x kk | addImm x kk | rnd x kk =>
    obtain rfl : VF = x := List.mem_singleton.mp h
    exact .inr (.inl ⟨kk, by simp⟩)
  | ldReg x y | orReg x y | andReg x y | xorReg x y =>
    obtain rfl : VF = x := List.mem_singleton.mp h
    exact .inr (.inr (.inl ⟨y, by simp⟩))
  | ldVxDt x =>
    obtain rfl : VF = x := List.mem_singleton.mp h
    exact .inr (.inr (.inr (.inl rfl)))
  | loadRegs x =>
    obtain rfl : x = VF := VF_mem_firstRegs.mp h
    exact .inr (.inr (.inr (.inr rfl)))
  | _ => simp [footprint] at h

/-- Settles O55: VF changed, so it stands in the instruction's footprint, whose register column names the
writers. -/
theorem flagWriters : Obligations.FlagWriters := by
  unfold Obligations.FlagWriters
  intro i s t h hc
  exact VF_writer (mem_footprint_regs_of_changed h hc)

end Sys2Proof.Machine
end

section
/-! PROOFS. The key flags are read by EX9E and EXA1 only (`10_state.md` R28): every other meaning commutes with
setting them. -/

namespace Sys2Proof.Machine

theorem State.skipIf_setKeys (s : State) (ks : Vector Bool 16) (c : Bool) :
    (s.setKeys ks).skipIf c = (s.skipIf c).setKeys ks := by
  cases c <;> rfl

theorem execRet_setKeys (s : State) (ks : Vector Bool 16) :
    execRet (s.setKeys ks) = mapNext (fun t => t.setKeys ks) (execRet s) := by
  rcases List.eq_nil_or_concat' s.stack with hs | ⟨l, v, hs⟩
  · have hk : (s.setKeys ks).stack = [] := hs
    rw [execRet, execRet, State.pop_nil _ hs, State.pop_nil _ hk]
    rfl
  · have hk : (s.setKeys ks).stack = l ++ [v] := hs
    rw [execRet, execRet, State.pop_append _ hs, State.pop_append _ hk]
    rfl

/-- Settles O56, by cases: neither the condition of a meaning nor its answer reads the key flags, but for the two
key skips. -/
theorem onlyKeySkipsReadKeys : Obligations.OnlyKeySkipsReadKeys := by
  unfold Obligations.OnlyKeySkipsReadKeys
  intro i s ks hi
  cases i with
  | skp x => exact absurd rfl (hi x).1
  | sknp x => exact absurd rfl (hi x).2
  | ret => exact execRet_setKeys s ks
  | call nnn | ldB x | storeRegs x | loadRegs x | drw x y n =>
    simp only [exec, execCall_eq, execLdB_eq, execStoreRegs_eq, execLoadRegs_eq, execDrw_eq, apply_ite (mapNext _)]
    rfl
  | seImm x kk | sneImm x kk | seReg x y | sneReg x y => exact congrArg _ (State.skipIf_setKeys s ks _)
  | _ => rfl

end Sys2Proof.Machine
end

section
/-! PROOFS. The state after power-on and reset (`10_state.md` R33, R34). -/

namespace Sys2Proof.Machine

/-- Settles O17: the values of the reset state, with what the laws say of its screen, its memory and its pc. -/
theorem resetState : Obligations.ResetState := by
  unfold Obligations.ResetState
  have hv (r : Reg) : State.reset.getV r = 0 := by simp [State.getV, State.reset]
  have hkeys (k : Key) : State.reset.keys[k] = false := by simp [State.reset]
  have hinv : State.reset.Inv := ⟨State.reset_mem_wf, Nat.zero_le 16, .inl rfl, .inl rfl⟩
  exact ⟨hv, rfl, rfl, Memory.read_nil State.reset.font, rfl, rfl, rfl, pixel_blankScreen, hkeys, rfl, rfl, rfl,
    hinv, State.reset_pcBound⟩

end Sys2Proof.Machine
end

section
/-! PROOFS. The undefined point of a data access (`20_memory.md` R51, decision D7): an instruction that moves bytes
through I stops exactly when its last byte lies above 0xFFF. -/

namespace Sys2Proof.Machine

/-- A meaning that completes under a condition and stops otherwise: it stops exactly when the condition fails. -/
theorem ite_next_eq_fault_iff {c : Prop} [Decidable c] (t : State) (f : Fault) :
    (if c then .next t else .fault f : Host.Outcome State Fault Refusal) = .fault f ↔ ¬c := by
  by_cases hc : c <;> simp [hc]

theorem execLdB_memOutOfRange_iff (x : Reg) (s : State) :
    execLdB x s = .fault .memOutOfRange ↔ 0xFFF < s.index.toNat + 2 := by
  rw [execLdB_eq, ite_next_eq_fault_iff]
  omega

theorem execStoreRegs_memOutOfRange_iff (x : Reg) (s : State) :
    execStoreRegs x s = .fault .memOutOfRange ↔ 0xFFF < s.index.toNat + x.val := by
  rw [execStoreRegs_eq, ite_next_eq_fault_iff]
  omega

theorem execLoadRegs_memOutOfRange_iff (x : Reg) (s : State) :
    execLoadRegs x s = .fault .memOutOfRange ↔ 0xFFF < s.index.toNat + x.val := by
  rw [execLoadRegs_eq, ite_next_eq_fault_iff]
  omega

/-- A draw of no rows reads no byte, so it never stops (`44_display.md` R171). -/
theorem execDrw_memOutOfRange_iff (x y : Reg) (n : Nibble) (s : State) :
    execDrw x y n s = .fault .memOutOfRange ↔ 0 < n.toNat ∧ 0xFFF < s.index.toNat + (n.toNat - 1) := by
  rw [execDrw_eq, ite_next_eq_fault_iff]
  omega

/-- Settles O43: each of the four meanings completes exactly when its last data address is in range. -/
theorem memOutOfRange : Obligations.MemOutOfRange := by
  unfold Obligations.MemOutOfRange
  intro s x y n
  exact ⟨execLdB_memOutOfRange_iff x s, execStoreRegs_memOutOfRange_iff x s, execLoadRegs_memOutOfRange_iff x s,
    execDrw_memOutOfRange_iff x y n s⟩

end Sys2Proof.Machine
end

section
/-! PROOFS. The decoder and the encoder are inverse (`30_encoding.md` R71 to R74), and the decoder accepts exactly
the rows of the opcode map (R74 to R76, decision D9). -/

namespace Sys2Proof

/-! ### From an instruction to its word and back -/

/-- The top four bits of an instruction's word select its group, N or KK its row, and the operands are the fields of
its format. -/
theorem decodeWord_encode (i : Instr) : decodeWord (encode i) = .ok i := by
  cases i with
  | cls | ret => rfl
  | jp _ | call _ | ldI _ | jpV0 _ | seImm _ _ | sneImm _ _ | ldImm _ _ | addImm _ _ | rnd _ _ | drw _ _ _
  | seReg _ _ | sneReg _ _ => simp [encode, decodeWord]
  | ldReg _ _ | orReg _ _ | andReg _ _ | xorReg _ _ | addReg _ _ | subReg _ _ | shr _ _ | subnReg _ _ | shl _ _ =>
    simp [encode, decodeWord, decodeGroup8]
  | skp _ | sknp _ => simp [encode, decodeWord, decodeGroupE]
  | ldVxDt _ | ldVxK _ | ldDtVx _ | ldStVx _ | addI _ | ldF _ | ldB _ | storeRegs _ | loadRegs _ =>
    simp [encode, decodeWord, decodeGroupF]

/-- Settles O1: the fields of an instruction's word are its operands and its row's selectors. -/
theorem decodeOfEncode : Obligations.DecodeOfEncode := by
  unfold Obligations.DecodeOfEncode
  exact decodeWord_encode

/-! ### From a word to its instruction and back -/

/-- A word of the format NNN is known by its top four bits. -/
theorem encodeNNN_eq_of_op {w : Word} {op : Nibble} (hop : (fieldOp w).toNat = op.toNat) :
    encodeNNN op (fieldNNN w) = w := by
  rw [← BitVec.eq_of_toNat_eq hop, encodeNNN_fields]

theorem encodeXKK_eq_of_op {w : Word} {op : Nibble} (hop : (fieldOp w).toNat = op.toNat) :
    encodeXKK op (fieldX w) (fieldKK w) = w := by
  rw [← BitVec.eq_of_toNat_eq hop, encodeXKK_fields]

theorem encodeXKK_eq_of_op_KK {w : Word} {op : Nibble} {kk : Byte} (hop : (fieldOp w).toNat = op.toNat)
    (hkk : (fieldKK w).toNat = kk.toNat) : encodeXKK op (fieldX w) kk = w := by
  rw [← BitVec.eq_of_toNat_eq hkk, encodeXKK_eq_of_op hop]

theorem encodeXYN_eq_of_op {w : Word} {op : Nibble} (hop : (fieldOp w).toNat = op.toNat) :
    encodeXYN op (fieldX w) (fieldY w) (fieldN w) = w := by
  rw [← BitVec.eq_of_toNat_eq hop, encodeXYN_fields]

theorem encodeXYN_eq_of_op_N {w : Word} {op n : Nibble} (hop : (fieldOp w).toNat = op.toNat)
    (hn : (fieldN w).toNat = n.toNat) : encodeXYN op (fieldX w) (fieldY w) n = w := by
  rw [← BitVec.eq_of_toNat_eq hn, encodeXYN_eq_of_op hop]

/-- An answer to the word `w`: the instruction whose word is `w`, or that `w` is illegal. -/
inductive AnswersFor (w : Word) : Except DecodeError Instr → Prop where
  | legal {i : Instr} (h : encode i = w) : AnswersFor w (.ok i)
  | illegal : AnswersFor w (.error (.illegal w))

theorem decodeGroup0_answersFor (w : Word) : AnswersFor w (decodeGroup0 w) := by
  unfold decodeGroup0
  split_ifs with hcls hret
  · exact .legal hcls.symm
  · exact .legal hret.symm
  · exact .illegal

theorem decodeGroup8_answersFor {w : Word} (hop : (fieldOp w).toNat = 8) : AnswersFor w (decodeGroup8 w) := by
  unfold decodeGroup8
  split
  case h_10 => exact .illegal
  all_goals exact .legal (encodeXYN_eq_of_op_N hop (by assumption))

theorem decodeGroupE_answersFor {w : Word} (hop : (fieldOp w).toNat = 0xE) : AnswersFor w (decodeGroupE w) := by
  unfold decodeGroupE
  split
  case h_3 => exact .illegal
  all_goals exact .legal (encodeXKK_eq_of_op_KK hop (by assumption))

theorem decodeGroupF_answersFor {w : Word} (hop : (fieldOp w).toNat = 0xF) : AnswersFor w (decodeGroupF w) := by
  unfold decodeGroupF
  split
  case h_10 => exact .illegal
  all_goals exact .legal (encodeXKK_eq_of_op_KK hop (by assumption))

/-- 5XY0 and 9XY0: every other low nibble is illegal (R76). -/
theorem ite_fieldN_answersFor {w : Word} {i : Instr} (h : fieldN w = 0 → encode i = w) :
    AnswersFor w (if fieldN w = 0 then .ok i else .error (.illegal w)) := by
  split_ifs with hn
  · exact .legal (h hn)
  · exact .illegal

/-- What the decoder can answer. Case `h_k` is the group of the top four bits `k - 1` (R74), the last that of none. -/
theorem decodeWord_answersFor (w : Word) : AnswersFor w (decodeWord w) := by
  unfold decodeWord
  split
  case h_1 => exact decodeGroup0_answersFor w
  case h_2 hop | h_3 hop | h_11 hop | h_12 hop => exact .legal (encodeNNN_eq_of_op hop)
  case h_4 hop | h_5 hop | h_7 hop | h_8 hop | h_13 hop => exact .legal (encodeXKK_eq_of_op hop)
  case h_6 hop | h_10 hop =>
    exact ite_fieldN_answersFor fun hn => encodeXYN_eq_of_op_N hop (congrArg BitVec.toNat hn)
  case h_9 hop => exact decodeGroup8_answersFor hop
  case h_14 hop => exact .legal (encodeXYN_eq_of_op hop)
  case h_15 hop => exact decodeGroupE_answersFor hop
  case h_16 hop => exact decodeGroupF_answersFor hop
  case h_17 => exact .illegal

theorem encode_of_decodeWord {w : Word} {i : Instr} (h : decodeWord w = .ok i) : encode i = w := by
  have ha := decodeWord_answersFor w
  rw [h] at ha
  cases ha with
  | legal he => exact he

/-- Settles O2, by what the decoder can answer. -/
theorem encodeOfDecode : Obligations.EncodeOfDecode := by
  unfold Obligations.EncodeOfDecode
  intro w i
  exact encode_of_decodeWord

/-! ### The rows of the opcode map -/

theorem Row.holds_iff {r : Row} {w : Word} : r.holds w = true ↔ w &&& r.mask = r.value := beq_iff_eq

open Laws.EncodesInRow in
/-- Every instruction's word lies in its row. -/
theorem encodesInRow (i : Instr) : Statement i := by
  cases i
  exacts [cls, ret, jp _, call _, seImm _ _, sneImm _ _, seReg _ _, ldImm _ _, addImm _ _, ldReg _ _, orReg _ _,
    andReg _ _, xorReg _ _, addReg _ _, subReg _ _, shr _ _, subnReg _ _, shl _ _, sneReg _ _, ldI _, jpV0 _, rnd _ _,
    drw _ _ _, skp _, sknp _, ldVxDt _, ldVxK _, ldDtVx _, ldStVx _, addI _, ldF _, ldB _, storeRegs _, loadRegs _]

theorem Row.holds_encode (i : Instr) : i.row.holds (encode i) = true := Row.holds_iff.mpr (encodesInRow i).1

/-- Words of one row agree in the bits that its mask covers. -/
theorem Row.extractLsb'_eq {r : Row} {w w' : Word} (h : r.holds w = true) (h' : r.holds w' = true) {start len : Nat}
    (hm : r.mask.extractLsb' start len = BitVec.allOnes len) :
    w.extractLsb' start len = w'.extractLsb' start len := by
  have masked (u : Word) : (u &&& r.mask).extractLsb' start len = u.extractLsb' start len := by
    rw [BitVec.extractLsb'_and, hm, BitVec.and_allOnes]
  rw [← masked w, ← masked w', Row.holds_iff.mp h, Row.holds_iff.mp h']

/-- A row with a secondary opcode in N fixes it. -/
theorem Row.fieldN_eq {r : Row} {w w' : Word} (h : r.holds w = true) (h' : r.holds w' = true)
    (hm : r.mask = 0xF00F) : fieldN w = fieldN w' := Row.extractLsb'_eq h h' (by rw [hm]; decide)

/-- A row with a secondary opcode in KK fixes it. -/
theorem Row.fieldKK_eq {r : Row} {w w' : Word} (h : r.holds w = true) (h' : r.holds w' = true)
    (hm : r.mask = 0xF0FF) : fieldKK w = fieldKK w' := Row.extractLsb'_eq h h' (by rw [hm]; decide)

/-- Every row fixes the top four bits. -/
theorem fieldOp_eq_of_row_holds {w : Word} (i : Instr) (h : i.row.holds w = true) : fieldOp w = fieldOp (encode i) := by
  have hm : i.row.mask.extractLsb' 12 4 = BitVec.allOnes 4 := by cases i <;> simp [Instr.row]
  exact Row.extractLsb'_eq h (Row.holds_encode i) hm

/-- A word in an instruction's row decodes to an instruction of that row: it agrees with the instruction's own word
in the bits that the decoder selects by. -/
theorem decodeWord_of_row_holds {w : Word} (i : Instr) (h : i.row.holds w = true) :
    ∃ j, decodeWord w = .ok j ∧ j.row = i.row := by
  have hi := Row.holds_encode i
  have hop := fieldOp_eq_of_row_holds i h
  cases i with
  | cls | ret =>
    obtain rfl : w = encode _ := by simpa using Row.extractLsb'_eq (start := 0) (len := 16) h hi (by simp [Instr.row])
    exact ⟨_, rfl, rfl⟩
  | jp _ | call _ | ldI _ | jpV0 _ | seImm _ _ | sneImm _ _ | ldImm _ _ | addImm _ _ | rnd _ _ | drw _ _ _ =>
    simp [decodeWord, hop, encode, Instr.row]
  | seReg _ _ | sneReg _ _ | ldReg _ _ | orReg _ _ | andReg _ _ | xorReg _ _ | addReg _ _ | subReg _ _ | shr _ _
  | subnReg _ _ | shl _ _ =>
    have hn := Row.fieldN_eq h hi rfl
    simp [decodeWord, decodeGroup8, hop, hn, encode, Instr.row]
  | skp _ | sknp _ | ldVxDt _ | ldVxK _ | ldDtVx _ | ldStVx _ | addI _ | ldF _ | ldB _ | storeRegs _ | loadRegs _ =>
    have hkk := Row.fieldKK_eq h hi rfl
    simp [decodeWord, decodeGroupE, decodeGroupF, hop, hkk, encode, Instr.row]

/-- A word of a row of the opcode map decodes to an instruction of that row. -/
theorem decodeWord_of_mem_opcodeRows {w : Word} {r : Row} (hr : r ∈ opcodeRows) (hw : r.holds w = true) :
    ∃ j, decodeWord w = .ok j ∧ j.row = r := by
  obtain ⟨i, -, rfl⟩ := List.mem_map.mp hr
  exact decodeWord_of_row_holds i hw

theorem wordWellFormed_iff {w : Word} : wordWellFormed w = true ↔ ∃ r ∈ opcodeRows, r.holds w = true :=
  List.any_eq_true

theorem wordWellFormed_encode (i : Instr) : wordWellFormed (encode i) = true :=
  wordWellFormed_iff.mpr ⟨i.row, (encodesInRow i).2, Row.holds_encode i⟩

theorem decodeWord_illegal {w : Word} (h : wordWellFormed w = false) : decodeWord w = .error (.illegal w) := by
  have ha := decodeWord_answersFor w
  generalize decodeWord w = answer at ha ⊢
  cases ha with
  | legal he => rw [← he, wordWellFormed_encode] at h; cases h
  | illegal => rfl

/-- Settles O3: a word of a row decodes to an instruction of that row, so the rows are disjoint too; a word that
decodes is an encoding, so it lies in a row. -/
theorem opcodeMapExact : Obligations.OpcodeMapExact := by
  unfold Obligations.OpcodeMapExact
  intro w
  refine ⟨fun h => ?_, decodeWord_illegal, fun r hr r' hr' h h' => ?_⟩
  · obtain ⟨r, hr, hw⟩ := wordWellFormed_iff.mp h
    obtain ⟨i, hi, rfl⟩ := decodeWord_of_mem_opcodeRows hr hw
    exact ⟨i, hi, hw⟩
  · obtain ⟨i, hi, rfl⟩ := decodeWord_of_mem_opcodeRows hr h
    obtain ⟨i', hi', rfl⟩ := decodeWord_of_mem_opcodeRows hr' h'
    cases hi.symm.trans hi'
    rfl

/-- Settles O4: the decoder run on each word. -/
theorem specWordsDecode : Obligations.SpecWordsDecode := by
  unfold Obligations.SpecWordsDecode
  decide

end Sys2Proof
end

section
/-! PROOFS. The invariant of the machine (`40_instruction_cycle.md` R101, `60_exceptions.md` R208): an instruction
runs only on a machine that is neither paused nor halted, and it can then either raise or leave the latch clear. -/

namespace Sys2Proof.Machine

/-- Fault entry ends the tick, and no key wait is pending where an instruction runs (`60_exceptions.md` R208). -/
theorem State.Inv.raise {s : State} (hs : s.Inv) (hwait : s.keyWait = none) (c : Cause) (a w : Word) :
    (s.raise c a w).Inv := by
  obtain ⟨hmem, hstack, -, -⟩ := hs
  exact ⟨hmem, hstack, .inl hwait, .inr rfl⟩

/-- On a machine that is not halted, moving pc and counting the batch keep the invariant. -/
theorem State.Inv.advance {s : State} (hs : s.Inv) (hfault : s.fault = none) (k : Nat) : (s.advance k).Inv := by
  obtain ⟨hmem, hstack, hwait, -⟩ := hs
  exact ⟨hmem, hstack, hwait, .inl hfault⟩

theorem State.Inv.setTick_none {s : State} (hs : s.Inv) : (s.setTick none).Inv := by
  obtain ⟨hmem, hstack, hwait, -⟩ := hs
  exact ⟨hmem, hstack, hwait, .inr rfl⟩

theorem exec_keeps_inv {i : Instr} {s t : State} (hs : s.Inv) (hwait : s.keyWait = none) (hfault : s.fault = none)
    (h : exec i s = .next t) : t.Inv := by
  have ⟨hmem, hstack, _, _⟩ := hs
  obtain ⟨-, hmem', hstack', ⟨hlatch, -⟩ | ⟨c, rfl⟩⟩ := exec_next_cases h
  · have hclear : t.fault = none := hlatch.trans hfault
    exact ⟨hmem' hmem, hstack' hstack, .inr hclear, .inl hclear⟩
  · exact hs.raise hwait ..

theorem cpuStep_keeps_inv {k : Nat} {s t : State} (hs : s.Inv) (hwait : s.keyWait = none) (hfault : s.fault = none)
    (h : cpuStep k s = .next t) : t.Inv := by
  have ha : (s.advance k).Inv := hs.advance hfault k
  rcases cpuStep_cases h with ⟨-, ho⟩ | ⟨w, i, -, -, ho⟩ | ⟨w, e, -, -, ho⟩
  · cases ho
  · exact exec_keeps_inv ha hwait hfault ho.symm
  · cases ho
    exact ha.raise hwait ..

theorem applyEvent_keeps_inv (e : Event) {s : State} (hs : s.Inv) : (applyEvent e s).Inv := by
  have ⟨hmem, hstack, hwait, htick⟩ := hs
  cases e with
  | reset => exact ⟨Memory.wf_nil _, Nat.zero_le 16, .inl rfl, .inl rfl⟩
  | loadProgram bytes =>
    rw [applyEvent]
    rcases Nat.lt_or_ge 3584 bytes.length with hlen | hlen
    · rw [eventLoad_overflow hlen]
      exact hs
    · rw [eventLoad_fits hlen]
      exact ⟨Memory.wf_writeAll bytes hmem (Nat.add_le_add_left hlen 0x200), hstack, hwait, htick⟩
  | tick n =>
    rw [applyEvent]
    by_cases hf : s.fault = none
    · rw [eventTick_begins hf]
      exact ⟨hmem, hstack, hwait, .inl hf⟩
    · rw [eventTick_halted hf]
      exact hs
  | keyDown code =>
    simp only [applyEvent, eventKeyDown, State.fulfilKeyWait]
    split
    · exact ⟨hmem, hstack, .inl rfl, htick⟩
    · exact hs
  | keyUp code => exact hs

theorem hostStep_keeps_inv {s : State} (hs : s.Inv) : (hostStep s).Inv := by
  rcases hostStep_cases s with ⟨-, he⟩ | ⟨e, rest, -, he⟩ <;> rw [he]
  · exact hs
  · exact applyEvent_keeps_inv e hs

theorem endTick_keeps_inv {s : State} (hs : s.Inv) : (endTick s).Inv := by
  obtain ⟨hmem, hstack, hwait, -⟩ := hs
  exact ⟨by simpa using hmem, by simpa using hstack, by simpa using hwait, .inr (endTick_tick s)⟩

/-- Settles O51, by the cases of a step: only an instruction can latch a fault, and none runs on a paused machine. -/
theorem stepKeepsInv : Obligations.StepKeepsInv := by
  unfold Obligations.StepKeepsInv
  intro s t hs h
  have hq : s.quiet.Inv := hs
  rcases step_cases h with ⟨-, ho⟩ | ⟨k, -, -, ho⟩ | ⟨k, -, -, -, ho⟩ | ⟨k, -, hw, hf, ho⟩
  · cases ho
    exact hostStep_keeps_inv hq
  · cases ho
    exact hq.setTick_none
  · cases ho
    exact endTick_keeps_inv hq
  · exact cpuStep_keeps_inv hq hw hf ho.symm

end Sys2Proof.Machine
end

section
/-! PROOFS. The instruction cycle (`40_instruction_cycle.md` R91, R92): what a running CPU fetches and runs, and that
a placed word is what it fetches (log entry 7). -/

namespace Sys2Proof.Machine

/-- A running CPU takes one instruction cycle. -/
theorem step_of_running {s : State} {k : Nat} (h : s.Running k) : step s = cpuStep k s.quiet := by
  obtain ⟨htick, hwait, hfault⟩ := h
  simp [step, machineStep, tickStep, htick, hwait, hfault]

theorem State.fetchWord_eq_some {s : State} (h : s.pc.toNat ≤ 0xFFE) :
    s.fetchWord = some (joinBytes (s.peek s.pc.toNat) (s.peek (s.pc.toNat + 1))) := if_pos h

theorem State.fetchWord_eq_none {s : State} (h : 0xFFE < s.pc.toNat) : s.fetchWord = none :=
  if_neg (Nat.not_le.mpr h)

theorem cpuStep_of_decodeWord {s : State} {w : Word} {i : Instr} (hw : s.fetchWord = some w)
    (hi : decodeWord w = .ok i) (k : Nat) : cpuStep k s = exec i (s.advance k) := by
  simp only [cpuStep, hw, hi]

theorem cpuStep_of_fetchWord_none {s : State} (h : s.fetchWord = none) (k : Nat) :
    cpuStep k s = .fault .fetchOutOfRange := by
  simp only [cpuStep, h]

/-- Settles O5: a running CPU fetches the two bytes at pc and runs what they decode to. -/
theorem stepRunsDecoded : Obligations.StepRunsDecoded := by
  unfold Obligations.StepRunsDecoded
  intro s k i hrun hpc hi
  have hfetch := State.fetchWord_eq_some (s := s.quiet) hpc
  rw [step_of_running hrun, cpuStep_of_decodeWord hfetch hi]
  rfl

/-- Settles O7: nothing is fetched from above 0xFFE. -/
theorem stepFetchOutOfRange : Obligations.StepFetchOutOfRange := by
  unfold Obligations.StepFetchOutOfRange
  intro s k hrun hpc
  have hfetch := State.fetchWord_eq_none (s := s.quiet) hpc
  rw [step_of_running hrun, cpuStep_of_fetchWord_none hfetch]

/-! ### The placed word -/

/-- The table's word decodes as the machine's decoder does it. -/
theorem decodeTableWord_eq_some {nbits w : Nat} {i : Instr} (h : decodeTableWord nbits w = some i) :
    decodeWord (tableWord nbits w) = .ok i := by
  simp only [decodeTableWord, decode, joinBytes_bytes] at h
  generalize decodeWord (tableWord nbits w) = answer at h ⊢
  cases answer with
  | ok j => exact congrArg _ (Option.some.inj h)
  | error e => cases h

theorem State.placeWord_running (s : State) (w : Word) : ∃ k, (s.placeWord w).Running k := by
  have htick : ∃ k, (s.placeWord w).tick = some (k + 1) := by
    simp only [State.placeWord]
    split
    · exact ⟨_, rfl⟩
    · exact ⟨0, rfl⟩
  obtain ⟨k, hk⟩ := htick
  exact ⟨k, hk, rfl, rfl⟩

theorem State.placeWord_peek {s : State} (h : s.pc.toNat ≤ 0xFFE) (w : Word) (a : Nat) :
    (s.placeWord w).peek a =
      (s.setMem (Memory.writeAll s.font s.mem s.pc.toNat [highByte w, lowByte w])).peek a := by
  simp only [State.placeWord, if_pos h]
  rfl

/-- The placed word is the word at pc. -/
theorem State.fetchWord_placeWord {s : State} (h : s.pc.toNat ≤ 0xFFE) (w : Word) :
    (s.placeWord w).fetchWord = some w := by
  have hpc : (s.placeWord w).pc = s.pc := rfl
  rw [State.fetchWord_eq_some (hpc ▸ h), hpc, State.placeWord_peek h, State.placeWord_peek h]
  simp [Memory.read_writeAll]

/-- Settles O8: the CPU with a placed word runs, and the word it fetches is the placed one. -/
theorem placedWordRuns : Obligations.PlacedWordRuns := by
  unfold Obligations.PlacedWordRuns
  intro s w i hpc hi
  obtain ⟨k, hrun⟩ := State.placeWord_running s (tableWord 16 w)
  have hfetch : (s.placeWord (tableWord 16 w)).quiet.fetchWord = some (tableWord 16 w) :=
    State.fetchWord_placeWord hpc _
  refine ⟨k, ?_⟩
  rw [State.withFetchWord, step_of_running hrun, cpuStep_of_decodeWord hfetch (decodeTableWord_eq_some hi)]
  rfl

end Sys2Proof.Machine
end

section
/-! PROOFS. A tick in steps (`40_instruction_cycle.md` R91, R93, R94): that they are `tick(n)` in one piece, what its
end leaves, and that PRESENT pulses there only. -/

namespace Sys2Proof.Machine

/-! ### The steps of a tick -/

theorem core_run_refused {s : State} {r : Refusal} (k : Nat) (h : step s = .refused r) :
    Sys2Proof.core.run (k + 1) s = .refused r := by
  have hc : Sys2Proof.core.step s = .refused r := h
  simp only [Host.Core.run, hc]

theorem core_run_one (s : State) : Sys2Proof.core.run 1 s = step s := by
  cases h : step s with
  | next t => exact core_run_next 0 h
  | fault f => exact core_run_fault 0 h
  | refused r => exact core_run_refused 0 h

/-- A step inside a tick whose batch is used up or whose CPU is paused ends the tick. -/
theorem step_endTick {s : State} {k : Nat} (htick : s.tick = some k) (hfault : s.fault = none)
    (hend : k = 0 ∨ s.keyWait ≠ none) : step s = .next (endTick s.quiet) := by
  rcases step_cases (s := s) rfl with ⟨ht, -⟩ | ⟨_, -, hf, -⟩ | ⟨_, -, -, -, ho⟩ | ⟨j, ht, hw, -, -⟩
  · cases htick.symm.trans ht
  · exact absurd hfault hf
  · exact ho
  · cases htick.symm.trans ht
    exact absurd hw (hend.resolve_left (Nat.succ_ne_zero j))

/-- An instruction cycle that leaves no fault latched leaves the rest of the batch in progress. -/
theorem cpuStep_tick {k : Nat} {s t : State} (h : cpuStep k s = .next t) (hfault : t.fault = none) :
    t.tick = some k := by
  rcases cpuStep_cases h with ⟨-, ho⟩ | ⟨w, i, -, -, ho⟩ | ⟨w, e, -, -, ho⟩
  · cases ho
  · obtain ⟨-, -, -, ⟨-, htick⟩ | ⟨c, rfl⟩⟩ := exec_next_cases ho.symm
    · exact htick
    · cases hfault
  · cases ho
    cases hfault

/-- What R91 does after the batch: a fault ends the tick at once, otherwise the timer and the output phase follow. -/
def closeTick (s : State) : State := if s.fault.isSome then s else endTick s.quiet

theorem closeTick_halted {s : State} (h : s.fault ≠ none) : closeTick s = s :=
  if_pos (Option.isSome_iff_ne_none.mpr h)

theorem closeTick_not_halted {s : State} (h : s.fault = none) : closeTick s = endTick s.quiet :=
  if_neg (by simp [h])

/-- `tick(n)` on a machine that is not halted is the batch and what follows it. -/
theorem tickWhole_eq {s : State} (h : s.fault = none) (n : Nat) :
    tickWhole n s = mapNext closeTick (batch n (s.setTick (some n))) := by
  rw [tickWhole, if_neg (by simp [h])]
  cases batch n (s.setTick (some n)) with
  | next t => exact (apply_ite Host.Outcome.next _ _ _).symm
  | fault f => rfl
  | refused r => rfl

theorem tickWhole_halted {s : State} (h : s.fault ≠ none) (n : Nat) : tickWhole n s = .next s :=
  if_pos (Option.isSome_iff_ne_none.mpr h)

/-- A batch with no instruction left or a paused CPU runs nothing. -/
theorem batch_ended {n : Nat} {s : State} (h : n = 0 ∨ s.keyWait ≠ none) : batch n s = .next s := by
  cases n with
  | zero => rfl
  | succ n => exact if_pos (Option.isSome_iff_ne_none.mpr (h.resolve_left (Nat.succ_ne_zero n)))

/-- The outcome of an instruction cycle that no further instruction of its batch follows: a fault is latched, or the
model stops. -/
def EndsBatch (o : Host.Outcome State Fault Refusal) : Prop := ∀ t, o = .next t → t.fault ≠ none

theorem mapNext_closeTick_of_endsBatch {o : Host.Outcome State Fault Refusal} (h : EndsBatch o) :
    mapNext closeTick o = o := by
  cases o with
  | next t => rw [mapNext, closeTick_halted (h t rfl)]
  | fault f => rfl
  | refused r => rfl

theorem batch_of_endsBatch {n : Nat} {s : State} (hwait : s.keyWait = none) (h : EndsBatch (cpuStep n s.quiet)) :
    batch (n + 1) s = cpuStep n s.quiet := by
  rw [batch, if_neg (by simp [hwait])]
  cases hcpu : cpuStep n s.quiet with
  | next t => exact if_pos (Option.isSome_iff_ne_none.mpr (h t hcpu))
  | fault f => rfl
  | refused r => rfl

theorem batch_of_next {n : Nat} {s t : State} (hwait : s.keyWait = none) (hcpu : cpuStep n s.quiet = .next t)
    (hfault : t.fault = none) : batch (n + 1) s = batch n t := by
  simp [batch, hwait, hcpu, hfault]

/-- The steps of a tick in progress do its batch and what follows it, one instruction a step. -/
theorem exists_run_eq_batch (n : Nat) {s : State} (htick : s.tick = some n) (hfault : s.fault = none) :
    ∃ j, 1 ≤ j ∧ j ≤ n + 1 ∧ Sys2Proof.core.run j s = mapNext closeTick (batch n s) := by
  induction n generalizing s with
  | zero =>
    refine ⟨1, le_rfl, le_rfl, ?_⟩
    rw [core_run_one, step_endTick htick hfault (.inl rfl), batch_ended (.inl rfl), mapNext,
      closeTick_not_halted hfault]
  | succ n ih =>
    by_cases hwait : s.keyWait = none
    · have hstep : step s = cpuStep n s.quiet := step_of_running ⟨htick, hwait, hfault⟩
      by_cases hend : EndsBatch (cpuStep n s.quiet)
      · refine ⟨1, le_rfl, by omega, ?_⟩
        rw [core_run_one, hstep, batch_of_endsBatch hwait hend, mapNext_closeTick_of_endsBatch hend]
      · obtain ⟨t, hcpu, hclear⟩ : ∃ t, cpuStep n s.quiet = .next t ∧ t.fault = none := by
          simpa [EndsBatch] using hend
        obtain ⟨j, -, hle, hrun⟩ := ih (cpuStep_tick hcpu hclear) hclear
        refine ⟨j + 1, by omega, by omega, ?_⟩
        rw [core_run_next j (hstep.trans hcpu), hrun, batch_of_next hwait hcpu hclear]
    · refine ⟨1, le_rfl, by omega, ?_⟩
      rw [core_run_one, step_endTick htick hfault (.inr hwait), batch_ended (.inr hwait), mapNext,
        closeTick_not_halted hfault]

/-- Settles O9: taking the event is one step, and the tick it begins is then run by its steps. -/
theorem tickIsItsSteps : Obligations.TickIsItsSteps := by
  unfold Obligations.TickIsItsSteps
  intro s n rest ht hi
  have hevent : step s = .next (eventTick n (s.quiet.setInbox rest)) := step_event ht hi
  by_cases hfault : (s.quiet.setInbox rest).fault = none
  · obtain ⟨j, -, hle, hrun⟩ := exists_run_eq_batch n (s := (s.quiet.setInbox rest).setTick (some n)) rfl hfault
    refine ⟨j + 1, by omega, by omega, ?_⟩
    rw [core_run_next j hevent, eventTick_begins hfault, hrun, tickWhole_eq hfault]
  · refine ⟨1, le_rfl, by omega, ?_⟩
    rw [core_run_one, hevent, eventTick_halted hfault, tickWhole_halted hfault]

/-! ### The end of a tick -/

section FrameRules

variable {regs : List Reg} {parts : List Part} {addrs : List Nat} {s t : State}

theorem frame_quiet (hp : .present ∈ parts) (hr : .reply ∈ parts) : Frame regs parts addrs s s.quiet where
  regs _ _ := rfl
  parts p hnot := by
    cases p with
    | present => exact absurd hp hnot
    | reply => exact absurd hr hnot
    | _ => rfl
  mem _ _ := rfl

/-- The timer phase and the output phase write the timers, the outputs and the batch count only (R93, R94). -/
theorem frame_endTick (h : [.dt, .st, .tone, .present, .tick] ⊆ parts) : Frame regs parts addrs s (endTick s) where
  regs r _ := endTick_getV s r
  parts p hp := by
    have hout : p ∉ [.dt, .st, .tone, .present, .tick] := fun hm => hp (h hm)
    cases p with
    | dt | st | tone | present | tick => exact absurd hout (by decide)
    | _ => simp [Part.kept]
  mem a _ := endTick_peek s a

end FrameRules

/-- Settles O10, by what each phase leaves. -/
theorem endOfTick : Obligations.EndOfTick := by
  unfold Obligations.EndOfTick
  intro s k htick hfault hend
  refine ⟨endTick s.quiet, step_endTick htick hfault hend, ?_, ?_, ?_, rfl, rfl, ?_⟩
  · rw [endTick_dt, apply_ite BitVec.toNat, toNat_countDown]
    rfl
  · rw [endTick_st, apply_ite BitVec.toNat, toNat_countDown]
    rfl
  · rw [endTick_tone, decide_eq_true_iff]
  · exact (frame_quiet (by simp) (by simp)).trans (frame_endTick (by simp))

/-! ### PRESENT -/

theorem cpuStep_present {k : Nat} {s t : State} (h : cpuStep k s = .next t) : t.present = s.present := by
  rcases cpuStep_cases h with ⟨-, ho⟩ | ⟨w, i, -, -, ho⟩ | ⟨w, e, -, -, ho⟩
  · cases ho
  · have hkept : Part.present.kept (s.advance k) t := kept_of_not_writable (by decide) ho.symm
    exact hkept
  · cases ho
    rfl

theorem applyEvent_present (e : Event) {s : State} (h : s.present = false) : (applyEvent e s).present = false := by
  cases e with
  | reset => rfl
  | loadProgram bytes =>
    simp only [applyEvent, eventLoad]
    split <;> exact h
  | tick n =>
    simp only [applyEvent, eventTick]
    split <;> exact h
  | keyDown code =>
    simp only [applyEvent, eventKeyDown, State.fulfilKeyWait]
    split <;> exact h
  | keyUp code => exact h

theorem hostStep_present {s : State} (h : s.present = false) : (hostStep s).present = false := by
  rcases hostStep_cases s with ⟨-, he⟩ | ⟨e, rest, -, he⟩ <;> rw [he]
  · exact h
  · exact applyEvent_present e h

/-- Settles O11, by the cases of a step: PRESENT is at rest before each, and only the output phase raises it. -/
theorem presentOnlyAtEndOfTick : Obligations.PresentOnlyAtEndOfTick := by
  unfold Obligations.PresentOnlyAtEndOfTick
  intro s t h
  rcases step_cases h with ⟨htick, ho⟩ | ⟨k, -, hfault, ho⟩ | ⟨k, htick, hfault, hend, ho⟩ | ⟨k, htick, hwait, -, ho⟩
  · cases ho
    have hlow : (hostStep s.quiet).present = false := hostStep_present rfl
    simp [hlow, htick]
  · cases ho
    simp [hfault]
  · cases ho
    exact iff_of_true rfl ⟨k, htick, hfault, hend⟩
  · have hlow : t.present = false := cpuStep_present ho.symm
    simp [hlow, htick, hwait]

end Sys2Proof.Machine
end

section
/-! PROOFS. A step between ticks (`40_instruction_cycle.md` R90, R95 to R99): waiting for the host, and each event. -/

namespace Sys2Proof.Machine

/-! ### Rules of `Frame` for the host's events -/

section FrameRules

variable {regs : List Reg} {parts : List Part} {addrs : List Nat} {s t : State}

theorem frame_setKeys (h : .keys ∈ parts) (ks : Vector Bool 16) : Frame regs parts addrs s (s.setKeys ks) where
  regs _ _ := rfl
  parts p hp := by
    cases p with
    | keys => exact absurd h hp
    | _ => rfl
  mem _ _ := rfl

theorem frame_setTick (h : .tick ∈ parts) (k : Option Nat) : Frame regs parts addrs s (s.setTick k) where
  regs _ _ := rfl
  parts p hp := by
    cases p with
    | tick => exact absurd h hp
    | _ => rfl
  mem _ _ := rfl

theorem frame_setInbox (h : .inbox ∈ parts) (es : List Event) : Frame regs parts addrs s (s.setInbox es) where
  regs _ _ := rfl
  parts p hp := by
    cases p with
    | inbox => exact absurd h hp
    | _ => rfl
  mem _ _ := rfl

theorem frame_setReply (h : .reply ∈ parts) (r : Option LoadReply) : Frame regs parts addrs s (s.setReply r) where
  regs _ _ := rfl
  parts p hp := by
    cases p with
    | reply => exact absurd h hp
    | _ => rfl
  mem _ _ := rfl

/-- Storing bytes from an address on writes those addresses and no other. -/
theorem frame_writeAll_from (a : Nat) (bs : List Byte) :
    Frame regs parts ((List.range bs.length).map (fun k => a + k)) s
      (s.setMem (Memory.writeAll s.font s.mem a bs)) where
  regs _ _ := rfl
  parts p _ := by cases p <;> rfl
  mem b hb := by
    have hout : ¬(a ≤ b ∧ b < a + bs.length) := fun ⟨hle, hlt⟩ =>
      hb (List.mem_map.mpr ⟨b - a, List.mem_range.mpr (by omega), by omega⟩)
    rw [State.setMem_peek, Memory.read_writeAll, dif_neg hout]
    rfl

/-- Every event is taken with the pulse outputs at rest and the host's other events left (R99). -/
theorem frame_takeEvent (h : [.present, .reply, .inbox] ⊆ parts) (rest : List Event) :
    Frame regs parts addrs s (s.quiet.setInbox rest) :=
  (frame_quiet (h (by simp)) (h (by simp))).trans (frame_setInbox (h (by simp)) rest)

end FrameRules

/-! ### Waiting -/

/-- Settles O14: with no event to come the step puts the pulse outputs to rest. -/
theorem waitsForHost : Obligations.WaitsForHost := by
  unfold Obligations.WaitsForHost
  intro s htick hinbox
  have hstep : step s = .next s.quiet := by simp [step, machineStep, htick, hostStep, hinbox]
  exact ⟨s.quiet, hstep, rfl, rfl, frame_quiet (by simp) (by simp)⟩

/-! ### `load_program` -/

/-- Settles O18: the load stores the bytes at 0x200 and the addresses after it. -/
theorem loadProgramFits : Obligations.LoadProgramFits := by
  unfold Obligations.LoadProgramFits
  intro s bytes rest htick hinbox hlen
  have hload := eventLoad_fits hlen (s.quiet.setInbox rest)
  refine ⟨_, step_event htick hinbox, ?_⟩
  rw [applyEvent, hload]
  refine ⟨rfl, rfl, fun k hk => ?_, ?_⟩
  · rw [State.setReply_peek, State.setMem_peek, Memory.read_writeAll, dif_pos ⟨by omega, by omega⟩]
    simp
  · exact (frame_takeEvent (by simp) rest).trans
      ((frame_writeAll_from 0x200 bytes).trans (frame_setReply (by simp) _))

/-- Settles O19: a program that does not fit only gets its reply. -/
theorem loadProgramOverflow : Obligations.LoadProgramOverflow := by
  unfold Obligations.LoadProgramOverflow
  intro s bytes rest htick hinbox hlen
  have hload := eventLoad_overflow hlen (s.quiet.setInbox rest)
  refine ⟨_, step_event htick hinbox, ?_⟩
  rw [applyEvent, hload]
  exact ⟨rfl, rfl, (frame_takeEvent (by simp) rest).trans (frame_setReply (by simp) _)⟩

/-! ### `tick(n)` -/

/-- Settles O22, by whether the machine is halted. -/
theorem tickBegins : Obligations.TickBegins := by
  unfold Obligations.TickBegins
  intro s n rest htick hinbox
  refine ⟨_, step_event htick hinbox, ?_⟩
  rw [applyEvent]
  by_cases hfault : (s.quiet.setInbox rest).fault = none
  · rw [eventTick_begins hfault]
    exact ⟨(if_pos hfault).symm, rfl, (frame_takeEvent (by simp) rest).trans (frame_setTick (by simp) _)⟩
  · rw [eventTick_halted hfault]
    exact ⟨htick.trans (if_neg hfault).symm, rfl, frame_takeEvent (by simp) rest⟩

/-! ### Keys -/

theorem getElem_set_of_ne (ks : Vector Bool 16) (b : Bool) {code k : Key} (h : k ≠ code) :
    (ks.set code b)[k] = ks[k] :=
  Vector.getElem_set_ne _ _ (fun e => h (Fin.ext e.symm))

@[simp] theorem fulfilKeyWait_keys (s : State) (code : Key) : (s.fulfilKeyWait code).keys = s.keys := by
  cases h : s.keyWait with
  | none => rw [fulfilKeyWait_none h]
  | some r => rw [fulfilKeyWait_pending h, State.setKeyWait_keys, State.setV_keys]

@[simp] theorem fulfilKeyWait_keyWait (s : State) (code : Key) : (s.fulfilKeyWait code).keyWait = none := by
  cases h : s.keyWait with
  | none => rw [fulfilKeyWait_none h, h]
  | some r => rw [fulfilKeyWait_pending h, State.setKeyWait_keyWait]

@[simp] theorem fulfilKeyWait_inbox (s : State) (code : Key) : (s.fulfilKeyWait code).inbox = s.inbox := by
  cases h : s.keyWait with
  | none => rw [fulfilKeyWait_none h]
  | some r => rw [fulfilKeyWait_pending h, State.setKeyWait_inbox, State.setV_inbox]

theorem getV_fulfilKeyWait {s : State} {r : Reg} (h : s.keyWait = some r) (code : Key) :
    (s.fulfilKeyWait code).getV r = keyByte code := by
  rw [fulfilKeyWait_pending h, State.setKeyWait_getV, State.getV_setV_same]

/-- A pending request is fulfilled in its register, and nothing else changes (R95). -/
theorem frame_fulfilKeyWait {regs : List Reg} {parts : List Part} {addrs : List Nat} {s : State}
    (hr : ∀ r, s.keyWait = some r → r ∈ regs) (hw : .keyWait ∈ parts) (code : Key) :
    Frame regs parts addrs s (s.fulfilKeyWait code) := by
  cases h : s.keyWait with
  | none =>
    rw [fulfilKeyWait_none h]
    exact ⟨fun _ _ => rfl, fun p _ => by cases p <;> rfl, fun _ _ => rfl⟩
  | some r =>
    rw [fulfilKeyWait_pending h]
    exact (frame_setV (hr r h) _).trans (frame_setKeyWait hw none)

theorem frame_eventKeyDown {regs : List Reg} {parts : List Part} {addrs : List Nat} {s : State}
    (hr : ∀ r, s.keyWait = some r → r ∈ regs) (hk : .keys ∈ parts) (hw : .keyWait ∈ parts) (code : Key) :
    Frame regs parts addrs s (eventKeyDown code s) := by
  have hreq := frame_fulfilKeyWait (addrs := addrs) (s := s.setKeys (s.keys.set code true)) hr hw code
  exact (frame_setKeys hk _).trans hreq

theorem eventKeyDown_keys (code : Key) (s : State) : (eventKeyDown code s).keys = s.keys.set code true := by
  rw [eventKeyDown, fulfilKeyWait_keys, State.setKeys_keys]

theorem eventKeyDown_inbox (code : Key) (s : State) : (eventKeyDown code s).inbox = s.inbox := by
  rw [eventKeyDown, fulfilKeyWait_inbox, State.setKeys_inbox]

theorem toNat_getV_eventKeyDown {s : State} {r : Reg} (h : s.keyWait = some r) (code : Key) :
    ((eventKeyDown code s).getV r).toNat = code.val := by
  have hreq : (s.setKeys (s.keys.set code true)).keyWait = some r := h
  rw [eventKeyDown, getV_fulfilKeyWait hreq, toNat_keyByte]

/-- Settles O20: the flag is set, and then a pending request is fulfilled. -/
theorem keyDown : Obligations.KeyDown := by
  unfold Obligations.KeyDown
  intro s code rest htick hinbox
  refine ⟨_, step_event htick hinbox, ?_⟩
  rw [applyEvent, eventKeyDown_keys, eventKeyDown_inbox]
  exact ⟨Vector.getElem_set_self _, fun k hk => getElem_set_of_ne _ _ hk,
    fun r hr => toNat_getV_eventKeyDown (s := s.quiet.setInbox rest) hr code, fulfilKeyWait_keyWait _ _, rfl,
    (frame_takeEvent (by simp) rest).trans
      (frame_eventKeyDown (s := s.quiet.setInbox rest) (fun _ => Option.mem_toList.mpr) (by simp) (by simp) code)⟩

/-- Settles O21: key_up writes its own flag only. -/
theorem keyUp : Obligations.KeyUp := by
  unfold Obligations.KeyUp
  intro s code rest htick hinbox
  exact ⟨_, step_event htick hinbox, Vector.getElem_set_self _, fun k hk => getElem_set_of_ne _ _ hk, rfl,
    (frame_takeEvent (by simp) rest).trans (frame_setKeys (by simp) _)⟩

end Sys2Proof.Machine
end

section
/-! PROOFS. Control transfer (`41_control_transfer.md` R111 to R118): return, jumps, call and register skips. -/

namespace Sys2Proof.Machine

/-! ### Return, jumps and call -/

theorem toNat_zextAddr (nnn : Addr) : (zextAddr nnn).toNat = nnn.toNat :=
  BitVec.toNat_setWidth_of_le (by decide)

theorem toNat_zextByte (b : Byte) : (zextByte b).toNat = b.toNat :=
  BitVec.toNat_setWidth_of_le (by decide)

/-- The target of BNNN is an exact sum: no 12-bit address plus a byte reaches 65536 (R118). -/
theorem toNat_zextAddr_add_zextByte (nnn : Addr) (b : Byte) :
    (zextAddr nnn + zextByte b).toNat = nnn.toNat + b.toNat := by
  rw [BitVec.toNat_add, toNat_zextAddr, toNat_zextByte]
  omega

/-- 00EE where a return address stands on the stack. -/
theorem execRet_append {s : State} {l : List Word} {v : Word} (h : s.stack = l ++ [v]) :
    execRet s = .next ((s.setStack l).setPc v) := by
  simp only [execRet, State.pop_append s h]

/-- Settles O23: the pop takes the last entry off, and then pc is written. -/
theorem retPops : Obligations.RetPops := by
  unfold Obligations.RetPops
  intro s l v hstack
  exact ⟨_, execRet_append hstack, rfl, rfl, (frame_setStack (by simp) l).trans (frame_setPc (by simp) v)⟩

/-- Settles O24: the target is the zero-extended address. -/
theorem jpSetsPc : Obligations.JpSetsPc := by
  unfold Obligations.JpSetsPc
  intro s nnn
  exact ⟨decodeWord_encode (.jp nnn), _, rfl, toNat_zextAddr nnn, frame_setPc (by simp) _⟩

/-- Settles O25: on a stack that is not full the push succeeds, and then pc is written. -/
theorem callPushes : Obligations.CallPushes := by
  unfold Obligations.CallPushes
  intro s nnn hfree
  have hcall := (execCall_eq nnn s).trans (if_pos hfree)
  exact ⟨_, hcall, rfl, toNat_zextAddr nnn, (frame_setStack (by simp) _).trans (frame_setPc (by simp) _)⟩

/-- Settles O29: the sum is taken in 16 bits, where it never wraps. -/
theorem jpV0AddsV0 : Obligations.JpV0AddsV0 := by
  unfold Obligations.JpV0AddsV0
  intro s nnn
  exact ⟨decodeWord_encode (.jpV0 nnn), _, rfl, toNat_zextAddr_add_zextByte nnn _, frame_setPc (by simp) _⟩

/-! ### Skips -/

/-- Where a skip on equality leaves pc. -/
theorem State.skipIf_beq_pc (s : State) (a b : Byte) :
    (s.skipIf (a == b)).pc = if a = b then s.pc + 2 else s.pc := by
  simp [State.skipIf_eq]

/-- Where a skip on difference leaves pc. -/
theorem State.skipIf_bne_pc (s : State) (a b : Byte) :
    (s.skipIf (a != b)).pc = if a = b then s.pc else s.pc + 2 := by
  by_cases h : a = b <;> simp [State.skipIf_eq, h]

/-- Settles O27: one skip on equality and one on difference, each of which writes pc only. -/
theorem skipsOnImmediate : Obligations.SkipsOnImmediate := by
  unfold Obligations.SkipsOnImmediate
  intro s x kk
  exact ⟨⟨decodeWord_encode (.seImm x kk), _, rfl, s.skipIf_beq_pc _ _, frame_skipIf (by simp) _⟩,
    ⟨decodeWord_encode (.sneImm x kk), _, rfl, s.skipIf_bne_pc _ _, frame_skipIf (by simp) _⟩⟩

/-- In the groups 5 and 9 a low nibble other than 0 is illegal (`30_encoding.md` R76, decision D9). -/
theorem decodeWord_encodeXYN_illegal {op n : Nibble} (hop : op = 0x5 ∨ op = 0x9) (hn : n ≠ 0) (x y : Reg) :
    decodeWord (encodeXYN op x y n) = .error (.illegal (encodeXYN op x y n)) := by
  rcases hop with rfl | rfl <;> simpa [decodeWord] using hn

/-- Settles O28: the skips as for an immediate, and the decoder's check of the low nibble. -/
theorem skipsOnRegisters : Obligations.SkipsOnRegisters := by
  unfold Obligations.SkipsOnRegisters
  intro s x y
  exact ⟨⟨decodeWord_encode (.seReg x y), _, rfl, s.skipIf_beq_pc _ _, frame_skipIf (by simp) _⟩,
    ⟨decodeWord_encode (.sneReg x y), _, rfl, s.skipIf_bne_pc _ _, frame_skipIf (by simp) _⟩,
    fun n hn => ⟨decodeWord_encodeXYN_illegal (.inl rfl) hn x y, decodeWord_encodeXYN_illegal (.inr rfl) hn x y⟩⟩

end Sys2Proof.Machine
end

section
/-! PROOFS. Register loads and the 8-bit ALU (`42_alu.md` R130 to R143). -/

namespace Sys2Proof.Machine

/-! ### Loads, the immediate sum, logic and the random byte: one register write -/

/-- Settles O30: the destination reads the byte just written. -/
theorem ldImmLoads : Obligations.LdImmLoads := by
  unfold Obligations.LdImmLoads
  intro s x kk
  exact ⟨decodeWord_encode (.ldImm x kk), _, rfl, State.getV_setV_same s x kk, frame_setV (by simp) kk⟩

/-- Settles O31: addition of bytes is addition modulo 256. -/
theorem addImmAdds : Obligations.AddImmAdds := by
  unfold Obligations.AddImmAdds
  intro s x kk
  refine ⟨decodeWord_encode (.addImm x kk), _, rfl, ?_, frame_setV (by simp) _⟩
  rw [State.getV_setV_same, BitVec.toNat_add]

/-- Settles O32: the destination reads the byte copied. -/
theorem ldRegCopies : Obligations.LdRegCopies := by
  unfold Obligations.LdRegCopies
  intro s x y
  exact ⟨decodeWord_encode (.ldReg x y), _, rfl, State.getV_setV_same s x _, frame_setV (by simp) _⟩

/-- Settles O33: each operation acts on the bits one by one, and its only write is the destination. -/
theorem logicOperations : Obligations.LogicOperations := by
  unfold Obligations.LogicOperations
  intro s x y
  refine ⟨⟨decodeWord_encode (.orReg x y), _, rfl, fun b => ?_, frame_setV (by simp) _⟩,
    ⟨decodeWord_encode (.andReg x y), _, rfl, fun b => ?_, frame_setV (by simp) _⟩,
    ⟨decodeWord_encode (.xorReg x y), _, rfl, fun b => ?_, frame_setV (by simp) _⟩⟩
  · rw [State.getV_setV_same, BitVec.getLsbD_or]
  · rw [State.getV_setV_same, BitVec.getLsbD_and]
  · rw [State.getV_setV_same, BitVec.getLsbD_xor]

/-- Settles O37: the draw is consumed, and the masked byte is written. -/
theorem rndMasksDraw : Obligations.RndMasksDraw := by
  unfold Obligations.RndMasksDraw
  intro s x kk
  exact ⟨_, rfl, State.getV_setV_same s.useDraw x _, rfl,
    (frame_useDraw (by simp)).trans (frame_setV (by simp) _)⟩

/-! ### The values of the flag -/

theorem flagByte_decide (p : Prop) [Decidable p] : flagByte (decide p) = if p then 1 else 0 := by
  by_cases h : p <;> simp [flagByte, h]

theorem toNat_flagByte (c : Bool) : (flagByte c).toNat = c.toNat := by
  cases c <;> rfl

/-- A right shift by one loses the remainder by 2 (R138). -/
theorem toNat_shrFlag (b : Byte) : (shrFlag b).toNat = b.toNat % 2 := by
  rw [shrFlag, toNat_flagByte, BitVec.getLsbD, Nat.toNat_testBit, Nat.pow_zero, Nat.div_one]

/-- A left shift by one loses the quotient by 128 (R140). -/
theorem toNat_shlFlag (b : Byte) : (shlFlag b).toNat = b.toNat / 128 := by
  rw [shlFlag, toNat_flagByte, BitVec.getLsbD, Nat.toNat_testBit]
  omega

/-! ### An operation that writes the flag and then its destination (R143) -/

/-- The flag stays where the destination is another register. -/
theorem State.getV_flag_then_dest {x : Reg} (h : x ≠ VF) (s : State) (flag b : Byte) :
    ((s.setV VF flag).setV x b).getV VF = flag := by
  rw [State.getV_setV_other _ _ h.symm, State.getV_setV_same]

/-! ### The sum of two registers (R136) -/

/-- Settles O34: the sum is taken before the flag is written, so it is that of the old operands. -/
theorem addRegAdds : Obligations.AddRegAdds := by
  unfold Obligations.AddRegAdds
  intro s x y
  refine ⟨_, rfl, ?_, fun hx => ?_, frame_flag_then_dest x _ _⟩
  · rw [State.getV_setV_same, BitVec.toNat_add]
  · rw [State.getV_flag_then_dest hx, carryFlag, flagByte_decide]

/-! ### Subtractions (R137, R139) -/

/-- A difference of bytes is the difference modulo 256. -/
theorem toNat_sub_byte (a b : Byte) : (a - b).toNat = (a.toNat + 256 - b.toNat) % 256 := by
  rw [BitVec.toNat_sub]
  omega

/-- After the flag write of a subtraction an operand that is VF reads as the flag (decision D2). -/
theorem State.getV_withBorrowFlag (s : State) (a b r : Reg) :
    (s.withBorrowFlag a b).getV r = if r = VF then noBorrowFlag (s.getV a) (s.getV b) else s.getV r :=
  State.getV_setV s VF r _

/-- The result of a subtraction of `b` from `a`, whichever of the registers its destination is. -/
theorem State.toNat_getV_difference (s : State) (x a b : Reg) :
    (((s.withBorrowFlag a b).setV x ((s.withBorrowFlag a b).getV a - (s.withBorrowFlag a b).getV b)).getV x).toNat =
      ((if a = VF then noBorrowFlag (s.getV a) (s.getV b) else s.getV a).toNat + 256 -
        (if b = VF then noBorrowFlag (s.getV a) (s.getV b) else s.getV b).toNat) % 256 := by
  rw [State.getV_setV_same, toNat_sub_byte, State.getV_withBorrowFlag, State.getV_withBorrowFlag]

/-- Settles O35: both are the one subtraction, with the operands exchanged. -/
theorem subtractions : Obligations.Subtractions := by
  unfold Obligations.Subtractions
  intro s x y
  exact ⟨⟨_, noBorrowFlag (s.getV x) (s.getV y), rfl, flagByte_decide _, s.toNat_getV_difference x x y,
      fun hx => State.getV_flag_then_dest hx s _ _, frame_flag_then_dest x _ _⟩,
    ⟨_, noBorrowFlag (s.getV y) (s.getV x), rfl, flagByte_decide _, s.toNat_getV_difference x y x,
      fun hx => State.getV_flag_then_dest hx s _ _, frame_flag_then_dest x _ _⟩⟩

/-! ### Shifts (R138, R140) -/

/-- A flag shifted to the right is lost (R138 with X = 0xF). -/
theorem flagByte_ushiftRight_one (c : Bool) : flagByte c >>> 1 = 0 := by
  cases c <;> rfl

/-- A flag shifted to the left is 0 or 2 (R140 with X = 0xF). -/
theorem toNat_flagByte_shiftLeft_one (c : Bool) : (flagByte c <<< 1).toNat = 2 * (flagByte c).toNat := by
  cases c <;> rfl

/-- Settles O36, by whether the register shifted is VF, which then holds the flag. -/
theorem shifts : Obligations.Shifts := by
  unfold Obligations.Shifts
  intro s x y
  refine ⟨⟨_, rfl, fun hx => ⟨?_, ?_⟩, ?_, frame_flag_then_dest x _ _⟩,
    ⟨_, rfl, fun hx => ⟨?_, ?_⟩, ?_, frame_flag_then_dest x _ _⟩⟩
  · rw [State.getV_setV_same, State.getV_setV_other _ _ hx, BitVec.toNat_ushiftRight, Nat.shiftRight_one]
  · rw [State.getV_flag_then_dest hx, toNat_shrFlag]
  · rintro rfl
    rw [State.getV_setV_same, State.getV_setV_same, shrFlag, flagByte_ushiftRight_one]
  · rw [State.getV_setV_same, State.getV_setV_other _ _ hx, BitVec.toNat_shiftLeft, Nat.shiftLeft_eq]
  · rw [State.getV_flag_then_dest hx, toNat_shlFlag]
  · rintro rfl
    rw [State.getV_setV_same, State.getV_setV_same, ← toNat_shlFlag, shlFlag, toNat_flagByte_shiftLeft_one]

end Sys2Proof.Machine
end

section
/-! PROOFS. The index register and memory transfer (`43_index_and_memory.md` R150 to R156). -/

namespace Sys2Proof.Machine

/-! ### The index register (R151 to R153) -/

/-- Settles O38: the zero-extended address stays in 0x000 to 0xFFF. -/
theorem ldILoads : Obligations.LdILoads := by
  unfold Obligations.LdILoads
  intro s nnn
  exact ⟨decodeWord_encode (.ldI nnn), _, rfl, toNat_zextAddr nnn, frame_setIndex (by simp) _⟩

/-- A glyph's address is an exact product: five times a byte stays below 65536 (R153, decision D13). -/
theorem toNat_glyphAddr (b : Byte) : (glyphAddr b).toNat = b.toNat * 5 :=
  Nat.mod_eq_of_lt (show b.toNat * 5 < 65536 by omega)

/-- Settles O39: FX1E is one sum of 16-bit words, and FX29 one product that never wraps. -/
theorem indexArithmetic : Obligations.IndexArithmetic := by
  unfold Obligations.IndexArithmetic
  intro s x
  refine ⟨⟨_, rfl, ?_, frame_setIndex (by simp) _⟩, ⟨_, rfl, toNat_glyphAddr _, frame_setIndex (by simp) _⟩⟩
  rw [State.setIndex_index, BitVec.toNat_add, toNat_zextByte]

/-! ### Stores through I (R154, R155) -/

/-- The k-th of the bytes stored through I stands at I + k (R150). -/
theorem State.peek_effAddr_writeAll (s : State) (bs : List Byte) {k : Nat} (hk : k < bs.length) :
    (s.setMem (Memory.writeAll s.font s.mem s.index.toNat bs)).peek (effAddr s.index k) = bs[k] := by
  have hin : s.index.toNat ≤ effAddr s.index k ∧ effAddr s.index k < s.index.toNat + bs.length := by
    unfold effAddr
    omega
  rw [State.setMem_peek, Memory.read_writeAll, dif_pos hin]
  simp [effAddr]

/-- Settles O40: the three stored bytes are the digits, each of which fits in a byte. -/
theorem ldBStoresDigits : Obligations.LdBStoresDigits := by
  unfold Obligations.LdBStoresDigits
  intro s x hindex
  have hexec : exec (.ldB x) s = _ := (execLdB_eq x s).trans (if_pos (by omega))
  have stored (k : Nat) (hk : k < 3) :=
    congrArg BitVec.toNat (s.peek_effAddr_writeAll (decimalDigits (s.getV x)) hk)
  exact ⟨_, hexec, (stored 0 (by decide)).trans (Nat.mod_eq_of_lt (by omega)),
    (stored 1 (by decide)).trans (Nat.mod_eq_of_lt (by omega)),
    (stored 2 (by decide)).trans (Nat.mod_eq_of_lt (by omega)), exec_frame hexec⟩

/-- Settles O41: the stored bytes are the first registers in order. -/
theorem storeRegsStores : Obligations.StoreRegsStores := by
  unfold Obligations.StoreRegsStores
  intro s x hrange
  have hexec : exec (.storeRegs x) s = _ := (execStoreRegs_eq x s).trans (if_pos (by omega))
  have hlen : (s.firstV (x.val + 1)).length = x.val + 1 := State.length_firstV s _ (by omega)
  refine ⟨_, hexec, fun r hr => ?_, exec_frame hexec⟩
  have hk : r.val < (s.firstV (x.val + 1)).length := by
    rw [hlen]
    exact Nat.lt_succ_of_le hr
  rw [State.peek_effAddr_writeAll s _ hk, State.getElem_firstV s _ _ hk r.isLt]

/-! ### Loads through I (R156) -/

/-- A register whose number is below n reads, after a load of n bytes, the byte that bears its number. -/
theorem State.getV_setFirstV_range (s : State) (f : Nat → Byte) {n : Nat} {r : Reg} (h : r.val < n) :
    (s.setFirstV ((List.range n).map f)).getV r = f r.val := by
  simp [h]

/-- Settles O42: the registers up to V[X] read the bytes loaded. -/
theorem loadRegsLoads : Obligations.LoadRegsLoads := by
  unfold Obligations.LoadRegsLoads
  intro s x hrange
  have hexec : exec (.loadRegs x) s = _ := (execLoadRegs_eq x s).trans (if_pos (by omega))
  exact ⟨_, hexec, fun r hr => s.getV_setFirstV_range _ (Nat.lt_succ_of_le hr), exec_frame hexec⟩

end Sys2Proof.Machine
end

section
/-! PROOFS. The display (`44_display.md` R170 to R173): clear, draw, and a draw executed twice. -/

namespace Sys2Proof.Machine

/-! ### Clear (R170) -/

/-- Settles O44: the screen written is blank, and nothing else is written. -/
theorem clsClears : Obligations.ClsClears := by
  unfold Obligations.ClsClears
  intro s
  exact ⟨decodeWord_encode .cls, _, rfl, pixel_blankScreen, frame_setFb (by simp) _⟩

/-! ### The pixels under the sprite -/

/-- The pixels under the 1 bits of the sprite of `n` rows at I, in the order of the draw (R171). -/
def State.coveredPixels (s : State) (x0 y0 : Byte) (n : Nat) : List Pixel :=
  spritePixels x0 y0 0 ((List.range n).map (fun row => s.peek (effAddr s.index row)))

theorem State.mem_coveredPixels {s : State} {x0 y0 : Byte} {n : Nat} {p : Pixel} :
    p ∈ s.coveredPixels x0 y0 n ↔ s.spriteCovers x0 y0 n p := by
  have hbyte {row : Nat} (h : row < n) :
      ((List.range n).map (fun k => s.peek (effAddr s.index k))).getD row 0 = s.peek (effAddr s.index row) := by
    simp [h]
  simp only [State.coveredPixels, mem_spritePixels, List.length_map, List.length_range, Nat.zero_add]
  constructor
  · rintro ⟨row, col, hrow, hcol, hbit, hp⟩
    exact ⟨row, col, hrow, hcol, hbyte hrow ▸ hbit, hp⟩
  · rintro ⟨row, col, hrow, hcol, hbit, hp⟩
    exact ⟨row, col, hrow, hcol, (hbyte hrow).symm ▸ hbit, hp⟩

/-- A sprite has at most 15 rows, so it covers each pixel at most once (R171 (c)). -/
theorem State.nodup_coveredPixels (s : State) (x0 y0 : Byte) (n : Nibble) :
    (s.coveredPixels x0 y0 n.toNat).Nodup := by
  refine nodup_spritePixels _ _ _ _ ?_
  rw [List.length_map, List.length_range]
  omega

/-! ### The state a draw leaves -/

/-- What DXYN leaves where its bytes lie in memory: the draw after VF is cleared (R171 (g), decision D3). -/
def State.afterDrw (s : State) (x y : Reg) (n : Nibble) : State :=
  (s.setV VF 0).drawSprite (s.coordinate x) (s.coordinate y)
    ((List.range n.toNat).map (fun row => s.peek (effAddr s.index row)))

theorem exec_drw_eq (x y : Reg) (n : Nibble) (s : State) :
    exec (.drw x y n) s =
      if n.toNat = 0 ∨ s.index.toNat + n.toNat ≤ 4096 then .next (s.afterDrw x y n)
      else .fault .memOutOfRange := by
  have h := execDrw_eq x y n s
  rwa [State.getV_cleared, State.getV_cleared] at h

/-- A draw inverts the covered pixels and no other. -/
theorem State.pixel_afterDrw (s : State) (x y : Reg) (n : Nibble) (p : Pixel) :
    pixel (s.afterDrw x y n).fb p =
      (pixel s.fb p ^^ decide (p ∈ s.coveredPixels (s.coordinate x) (s.coordinate y) n.toNat)) :=
  pixel_toggleAll (s.nodup_coveredPixels _ _ n) s.fb p

/-- A draw leaves in VF whether a covered pixel was set. -/
theorem State.afterDrw_VF (s : State) (x y : Reg) (n : Nibble) :
    (s.afterDrw x y n).getV VF =
      flagByte ((s.coveredPixels (s.coordinate x) (s.coordinate y) n.toNat).any (pixel s.fb)) := by
  rw [← collides_eq_any (s.nodup_coveredPixels _ _ n)]
  exact State.drawSprite_VF _ _ _ _

/-- Settles O45: the covered pixels are pairwise different, so each is inverted once and the order of the toggles
does not matter to the flag. -/
theorem drwDraws : Obligations.DrwDraws := by
  unfold Obligations.DrwDraws
  intro s x y n hrange
  have hexec : exec (.drw x y n) s = _ := (exec_drw_eq x y n s).trans (if_pos (by omega))
  refine ⟨_, hexec, fun p hp => ?_, fun p hp => ?_, ?_, fun hclear => ?_, exec_frame hexec⟩
  · simp [State.pixel_afterDrw, State.mem_coveredPixels.mpr hp]
  · simp [State.pixel_afterDrw, mt State.mem_coveredPixels.mp hp]
  · rintro ⟨p, hp, hset⟩
    rw [State.afterDrw_VF, List.any_eq_true.mpr ⟨p, State.mem_coveredPixels.mpr hp, hset⟩]
    rfl
  · have hnone : ∀ p ∈ s.coveredPixels (s.coordinate x) (s.coordinate y) n.toNat, ¬pixel s.fb p = true :=
      fun p hp => by simp [hclear p (State.mem_coveredPixels.mp hp)]
    rw [State.afterDrw_VF, List.any_eq_false.mpr hnone]
    rfl

/-! ### The same draw twice (R173 (1)) -/

/-- A coordinate register other than VF reads the same before and after an instruction that writes no register
but VF. -/
theorem Frame.coordinate {r : Reg} {parts : List Part} {addrs : List Nat} {s t : State}
    (hf : Frame [VF] parts addrs s t) (hr : r ≠ VF) : t.coordinate r = s.coordinate r := by
  rw [State.coordinate, State.coordinate, if_neg hr, if_neg hr]
  exact hf.regs r (by simpa using hr)

/-- Where I and memory are kept, the sprite covers the same pixels. -/
theorem Frame.coveredPixels {regs : List Reg} {parts : List Part} {s t : State} (hf : Frame regs parts [] s t)
    (hi : .index ∉ parts) (x0 y0 : Byte) (n : Nat) : t.coveredPixels x0 y0 n = s.coveredPixels x0 y0 n := by
  have hindex : t.index = s.index := hf.parts .index hi
  have hpeek (a : Nat) : t.peek a = s.peek a := hf.mem a (by simp)
  simp only [State.coveredPixels, hindex, hpeek]

/-- Settles O46: the second draw covers the pixels of the first, and each is inverted twice. -/
theorem drawTwiceRestores : Obligations.DrawTwiceRestores := by
  unfold Obligations.DrawTwiceRestores
  intro s t x y n hx hy h
  have hf : Frame [VF] [.fb] [] s t := exec_frame h
  have hindex : t.index = s.index := hf.parts .index (by simp)
  rw [exec_drw_eq] at h
  split at h <;> cases h
  case isTrue hrange =>
    refine ⟨_, (exec_drw_eq x y n _).trans (if_pos (hindex ▸ hrange)), screen_ext fun p => ?_⟩
    rw [State.pixel_afterDrw, hf.coordinate hx, hf.coordinate hy, hf.coveredPixels (by simp),
      State.pixel_afterDrw, Bool.xor_assoc, Bool.xor_self, Bool.xor_false]

end Sys2Proof.Machine
end

section
/-! PROOFS. Timers and the keypad (`45_timers_and_input.md` R180 to R186): the timer and key instructions, and what a
machine paused by a key wait may still write. -/

namespace Sys2Proof.Machine

/-! ### What a paused machine may write -/

section FrameRules

variable {regs : List Reg} {parts : List Part} {addrs : List Nat} {s t : State}

theorem Frame.refl (s : State) : Frame regs parts addrs s s where
  regs _ _ := rfl
  parts p _ := by cases p <;> rfl
  mem _ _ := rfl

/-- Where no register may be written, the register file is the same. -/
theorem Frame.v_eq (hf : Frame [] parts addrs s t) : t.v = s.v :=
  Vector.ext fun i hi => hf.regs ⟨i, hi⟩ List.not_mem_nil

/-- What may be written in one frame may be written in a wider one. -/
theorem Frame.mono_parts {wider : List Part} (hf : Frame regs parts addrs s t) (h : parts ⊆ wider) :
    Frame regs wider addrs s t where
  regs := hf.regs
  parts p hp := hf.parts p (fun hm => hp (h hm))
  mem := hf.mem

theorem frame_outputPhase (s : State) : Frame regs [.tone, .present, .tick] addrs s (outputPhase s) where
  regs _ _ := rfl
  parts p hp := by
    cases p with
    | tone | present | tick => exact absurd hp (by decide)
    | _ => rfl
  mem _ _ := rfl

/-- At the end of a paused tick no timer counts: only the output phase writes (R181). -/
theorem frame_endTick_paused (hwait : s.keyWait ≠ none) :
    Frame regs [.tone, .present, .tick] addrs s (endTick s) := by
  rw [endTick, timerPhase_paused hwait]
  exact frame_outputPhase s

/-- An event other than `reset` and `key_down` reaches no more than the key flags, the batch count, the reply to a
load and memory (R91, R96, R97). -/
theorem exists_frame_applyEvent {e : Event} (hreset : e ≠ .reset) (hkey : ∀ c, e ≠ .keyDown c) :
    ∃ addrs, Frame regs [.keys, .tick, .reply] addrs s (applyEvent e s) := by
  cases e with
  | reset => exact absurd rfl hreset
  | keyDown c => exact absurd rfl (hkey c)
  | keyUp c => exact ⟨[], frame_setKeys (by simp) _⟩
  | tick n =>
    rw [applyEvent]
    by_cases hfault : s.fault = none
    · rw [eventTick_begins hfault]
      exact ⟨[], frame_setTick (by simp) _⟩
    · rw [eventTick_halted hfault]
      exact ⟨[], Frame.refl s⟩
  | loadProgram bytes =>
    rw [applyEvent]
    rcases Nat.lt_or_ge 3584 bytes.length with hlen | hlen
    · rw [eventLoad_overflow hlen]
      exact ⟨[], frame_setReply (by simp) _⟩
    · rw [eventLoad_fits hlen]
      exact ⟨_, (frame_writeAll_from 0x200 bytes).trans (frame_setReply (by simp) _)⟩

end FrameRules

/-- The parts a step of a paused machine may write: the outputs, the batch count, the key flags and the host's
events. -/
def pausedParts : List Part := [.keys, .tone, .present, .reply, .tick, .inbox]

/-- A step of a paused machine, with no `reset` or `key_down` to take, writes no register and only those parts. -/
theorem exists_step_of_paused {s : State} (hwait : s.keyWait ≠ none) (hfault : s.fault = none)
    (hevent : ∀ e rest, s.tick = none → s.inbox = e :: rest → e ≠ .reset ∧ ∀ c, e ≠ .keyDown c) :
    ∃ t addrs, step s = .next t ∧ Frame [] pausedParts addrs s t := by
  cases htick : s.tick with
  | some k =>
    have hend : Frame [] [.tone, .present, .tick] [] s.quiet (endTick s.quiet) := frame_endTick_paused hwait
    exact ⟨_, [], step_endTick htick hfault (.inr hwait),
      (frame_quiet (by decide) (by decide)).trans (hend.mono_parts (by decide))⟩
  | none =>
    cases hinbox : s.inbox with
    | nil =>
      obtain ⟨t, hstep, -, -, hf⟩ := waitsForHost s htick hinbox
      exact ⟨t, [], hstep, hf.mono_parts (by decide)⟩
    | cons e rest =>
      obtain ⟨hreset, hkey⟩ := hevent e rest htick hinbox
      obtain ⟨addrs, hf⟩ := exists_frame_applyEvent (regs := []) (s := s.quiet.setInbox rest) hreset hkey
      exact ⟨_, addrs, step_event htick hinbox,
        (frame_takeEvent (by decide) rest).trans (hf.mono_parts (by decide))⟩

/-- Settles O13: what the statement names stands outside the parts a paused step may write. -/
theorem pausedUntilKeyDown : Obligations.PausedUntilKeyDown := by
  unfold Obligations.PausedUntilKeyDown
  intro s r hwait hfault hevent
  obtain ⟨t, addrs, hstep, hf⟩ := exists_step_of_paused (by simp [hwait]) hfault hevent
  have kept (p : Part) (hp : p ∉ pausedParts) : p.kept s t := hf.parts p hp
  exact ⟨t, hstep, (kept .keyWait (by decide)).trans hwait, hf.v_eq, kept .pc (by decide), kept .index (by decide),
    kept .stack (by decide), kept .dt (by decide), kept .st (by decide), kept .fb (by decide),
    kept .draws (by decide)⟩

/-! ### Timer instructions and the start of a key wait: one write each -/

/-- Settles O47: FX07 writes its register, FX15 and FX18 each their timer. -/
theorem timerAccess : Obligations.TimerAccess := by
  unfold Obligations.TimerAccess
  intro s x
  exact ⟨⟨_, rfl, State.getV_setV_same s x s.dt, frame_setV (by simp) _⟩,
    ⟨_, rfl, rfl, frame_setDt (by simp) _⟩,
    ⟨_, rfl, rfl, frame_setSt (by simp) _⟩⟩

/-- Settles O48: the request is the only write. -/
theorem keyWaitBegins : Obligations.KeyWaitBegins := by
  unfold Obligations.KeyWaitBegins
  intro s x
  exact ⟨_, rfl, rfl, frame_setKeyWait (by simp) _⟩

/-! ### Key skips -/

/-- A register that holds a key's number selects that key's flag. -/
theorem State.keyFlag_of_toNat {s : State} {b : Byte} {k : Key} (h : b.toNat = k.val) :
    s.keyFlag b = some s.keys[k] := by
  rw [State.keyFlag_eq s b (h ▸ k.isLt)]
  simp [h]

/-- Settles O49: V[X] selects the flag of key k, which is the condition of one skip and whose negation is that of
the other. -/
theorem skipsOnKey : Obligations.SkipsOnKey := by
  unfold Obligations.SkipsOnKey
  intro s x k hk
  have hflag := State.keyFlag_of_toNat (s := s) hk
  have hskp : exec (.skp x) s = .next (s.skipIf s.keys[k]) := by simp only [exec, execSkp, hflag]
  have hsknp : exec (.sknp x) s = .next (s.skipIf (!s.keys[k])) := by simp only [exec, execSknp, hflag]
  refine ⟨⟨_, hskp, ?_, frame_skipIf (by simp) _⟩, ⟨_, hsknp, ?_, frame_skipIf (by simp) _⟩⟩
  · rw [State.skipIf_eq, State.setPc_pc]
  · cases s.keys[k] <;> rfl

/-- Settles O50: a number above 15 selects no flag. -/
theorem keyIndexOutOfRange : Obligations.KeyIndexOutOfRange := by
  unfold Obligations.KeyIndexOutOfRange
  intro s x hx
  have hnone : s.keyFlag (s.getV x) = none := State.keyFlag_none s _ hx
  exact ⟨by simp only [exec, execSkp, hnone], by simp only [exec, execSknp, hnone]⟩

end Sys2Proof.Machine
end

section
/-! PROOFS. Faults (`60_exceptions.md` R200 to R209): fault entry and its preciseness, the halted machine, the undefined
points of the instructions, and the numeric codes. -/

namespace Sys2Proof.Machine

/-! ### Fault entry (R208) -/

theorem frame_raise {regs : List Reg} {parts : List Part} {addrs : List Nat} {s : State} (hf : .fault ∈ parts)
    (ht : .tick ∈ parts) (c : Cause) (a w : Word) : Frame regs parts addrs s (s.raise c a w) where
  regs _ _ := rfl
  parts p hp := by
    cases p with
    | fault => exact absurd hf hp
    | tick => exact absurd ht hp
    | _ => rfl
  mem _ _ := rfl

/-- What an instruction cycle that faults with cause `c` on the fetched word `w` leaves: pc moved over the instruction
and the fault entered, with the pulse outputs at rest. -/
def State.faulted (s : State) (c : Cause) (w : Word) : State := (s.quiet.setPc (s.pc + 2)).raise c s.pc w

/-- A fault raised in the rule of an instruction records the address it was fetched from and its word. -/
theorem State.raiseIn_advance (s : State) (k : Nat) (c : Cause) (i : Instr) :
    (s.quiet.advance k).raiseIn c i = s.faulted c (encode i) := by
  have haddr : (s.quiet.advance k).fetchAddr = s.pc := BitVec.add_sub_cancel s.pc 2
  rw [State.raiseIn, haddr]
  rfl

/-- Fault entry changes pc, the latch, the batch count and the pulse outputs only. -/
theorem State.frame_faulted (s : State) (c : Cause) (w : Word) :
    Frame [] [.pc, .fault, .tick, .present, .reply] [] s (s.faulted c w) :=
  (frame_quiet (by simp) (by simp)).trans
    ((frame_setPc (by simp) _).trans (frame_raise (by simp) (by simp) c s.pc w))

/-! ### Precise faults -/

/-- The one step of a running CPU on a word of no row. -/
theorem step_of_illegal {s : State} {k : Nat} {w : Word} (hrun : s.Running k) (hfetch : s.fetchWord = some w)
    (hw : wordWellFormed w = false) : step s = .next (s.faulted .illegalOpcode w) := by
  have hq : s.quiet.fetchWord = some w := hfetch
  simp only [step_of_running hrun, cpuStep, hq, decodeWord_illegal hw]
  rfl

/-- An instruction cycle that leaves a fault latched did nothing but enter it. -/
theorem exists_eq_faulted_of_step {s t : State} {k : Nat} {w : Word} {f : FaultRecord} (hrun : s.Running k)
    (hfetch : s.fetchWord = some w) (h : step s = .next t) (hf : t.fault = some f) :
    ∃ c, t = s.faulted c w := by
  have ⟨_, _, hclear⟩ := hrun
  have hq : s.quiet.fetchWord = some w := hfetch
  rw [step_of_running hrun] at h
  rcases cpuStep_cases h with ⟨-, ho⟩ | ⟨w', i, hw', hi, ho⟩ | ⟨w', e, hw', -, ho⟩
  · cases ho
  · cases hq.symm.trans hw'
    obtain ⟨-, -, -, ⟨hlatch, -⟩ | ⟨c, rfl⟩⟩ := exec_next_cases ho.symm
    · cases (hf.symm.trans hlatch).trans hclear
    · exact ⟨c, by rw [State.raiseIn_advance, encode_of_decodeWord hi]⟩
  · cases hq.symm.trans hw'
    cases ho
    exact ⟨.illegalOpcode, rfl⟩

/-- Settles O6: a word of no row does not decode, and the cycle enters the fault. -/
theorem stepIllegalOpcode : Obligations.StepIllegalOpcode := by
  unfold Obligations.StepIllegalOpcode
  rintro s k w hrun hpc rfl hw
  exact ⟨_, step_of_illegal hrun (State.fetchWord_eq_some hpc) hw, rfl, rfl, rfl, rfl, s.frame_faulted _ _⟩

/-- Settles O15: the fault was entered in this cycle, whatever raised it. -/
theorem faultsArePrecise : Obligations.FaultsArePrecise := by
  unfold Obligations.FaultsArePrecise
  intro s t k w f hrun hfetch h hf
  obtain ⟨c, rfl⟩ := exists_eq_faulted_of_step hrun hfetch h hf
  cases hf
  exact ⟨rfl, rfl, rfl, rfl, rfl, s.frame_faulted _ _⟩

/-! ### The call stack's faults (R202, R203) -/

theorem exec_ret_of_empty {s : State} (h : s.stack = []) : exec .ret s = .next (s.raiseIn .stackUnderflow .ret) := by
  simp only [exec, execRet, State.pop_nil s h]

theorem exec_call_of_full {s : State} (h : 16 ≤ s.stack.length) (nnn : Addr) :
    exec (.call nnn) s = .next (s.raiseIn .stackOverflow (.call nnn)) :=
  (execCall_eq nnn s).trans (if_neg (Nat.not_lt.mpr h))

/-- Settles O26: neither rule gets past its stack access. -/
theorem stackFaults : Obligations.StackFaults := by
  unfold Obligations.StackFaults
  intro s nnn
  exact ⟨fun h => ⟨_, exec_ret_of_empty h, rfl, rfl, frame_raiseIn (by simp) (by simp) _ _⟩,
    fun h => ⟨_, exec_call_of_full h nnn, rfl, rfl, frame_raiseIn (by simp) (by simp) _ _⟩⟩

/-! ### The halted machine (R209) -/

/-- With no key wait to fulfil, `key_down` writes the key flags only, so `reset` alone reaches further. -/
theorem exists_frame_applyEvent_of_not_waiting {regs : List Reg} {s : State} {e : Event} (hreset : e ≠ .reset)
    (hwait : s.keyWait = none) : ∃ addrs, Frame regs [.keys, .tick, .reply] addrs s (applyEvent e s) := by
  cases e with
  | keyDown code =>
    have hnone : (s.setKeys (s.keys.set code true)).keyWait = none := hwait
    rw [applyEvent, eventKeyDown, fulfilKeyWait_none hnone]
    exact ⟨[], frame_setKeys (by simp) _⟩
  | _ => exact exists_frame_applyEvent hreset nofun

/-- The parts a step of a halted machine may write: the key flags, the batch count, the pulse outputs and the host's
events. -/
def haltedParts : List Part := [.keys, .tick, .present, .reply, .inbox]

/-- A step of a halted machine, with no `reset` to take, writes no register and only those parts. -/
theorem exists_step_of_halted {s : State} (hinv : s.Inv) (hfault : s.fault ≠ none)
    (hreset : ∀ rest, s.inbox ≠ .reset :: rest) :
    ∃ t addrs, step s = .next t ∧ Frame [] haltedParts addrs s t := by
  obtain ⟨-, -, hwait, htick⟩ := hinv
  replace hwait := hwait.resolve_right hfault
  replace htick := htick.resolve_left hfault
  cases hinbox : s.inbox with
  | nil =>
    obtain ⟨t, hstep, -, -, hf⟩ := waitsForHost s htick hinbox
    exact ⟨t, [], hstep, hf.mono_parts (by decide)⟩
  | cons e rest =>
    have he : e ≠ .reset := by
      rintro rfl
      exact hreset rest hinbox
    obtain ⟨addrs, hf⟩ := exists_frame_applyEvent_of_not_waiting (regs := []) (s := s.quiet.setInbox rest) he hwait
    exact ⟨_, addrs, step_event htick hinbox, (frame_takeEvent (by decide) rest).trans (hf.mono_parts (by decide))⟩

/-- Settles O12, by whether the next event is `reset`: what the statement names stands outside the parts any other step
of a halted machine may write. -/
theorem haltedUntilReset : Obligations.HaltedUntilReset := by
  unfold Obligations.HaltedUntilReset
  intro s f hinv hfault
  have hhalted : s.fault ≠ none := by simp [hfault]
  by_cases hreset : ∃ rest, s.inbox = .reset :: rest
  · obtain ⟨rest, hinbox⟩ := hreset
    obtain ⟨-, -, -, htick⟩ := hinv
    exact ⟨_, step_event (htick.resolve_left hhalted) hinbox, .inl ⟨⟨rest, hinbox⟩, rfl⟩⟩
  · obtain ⟨t, addrs, hstep, hf⟩ := exists_step_of_halted hinv hhalted (not_exists.mp hreset)
    have kept (p : Part) (hp : p ∉ haltedParts) : p.kept s t := hf.parts p hp
    exact ⟨t, hstep, .inr ⟨(kept .fault (by decide)).trans hfault, hf.v_eq, kept .pc (by decide),
      kept .index (by decide), kept .stack (by decide), kept .dt (by decide), kept .st (by decide),
      kept .fb (by decide), kept .tone (by decide), kept .keyWait (by decide), kept .draws (by decide)⟩⟩

/-! ### The undefined points of the instructions (R205) -/

/-- Settles O57, by cases: four meanings stop at an address out of range, two at a key number out of range, and 00EE
and 2NNN answer a next state on either side of their stack check. -/
theorem faultsOnlyFrom : Obligations.FaultsOnlyFrom := by
  unfold Obligations.FaultsOnlyFrom
  intro i s f h
  cases i with
  | drw x y n | ldB x | storeRegs x | loadRegs x =>
    simp only [exec, execDrw_eq, execLdB_eq, execStoreRegs_eq, execLoadRegs_eq] at h
    split at h <;> cases h
    exact .inl ⟨rfl, by simp⟩
  | skp x | sknp x =>
    simp only [exec, execSkp, execSknp] at h
    split at h <;> cases h
    exact .inr ⟨rfl, by simp⟩
  | ret | call nnn =>
    simp only [exec, execRet, execCall_eq] at h
    split at h <;> cases h
  | _ => cases h

/-! ### The numeric codes (R200, decision D23) -/

theorem State.faultCode_congr {s t : State} (h : t.fault = s.fault) : t.faultCode = s.faultCode := by
  simp only [State.faultCode, h]

theorem State.replyCode_of_loadOverflow {s : State} (h : s.reply = some .loadOverflow) : s.replyCode = 4 := by
  simp only [State.replyCode, h]

/-- Settles O58: the code is that of the cause entered, and a load that does not fit leaves the latch. -/
theorem faultCodes : Obligations.FaultCodes := by
  unfold Obligations.FaultCodes
  intro s
  refine ⟨s.faultCode_eq_zero, fun k w hrun hfetch hw => ⟨_, step_of_illegal hrun hfetch hw, rfl⟩,
    fun h => ⟨_, exec_ret_of_empty h, rfl⟩, fun h nnn => ⟨_, exec_call_of_full h nnn, rfl⟩,
    fun bytes rest htick hinbox hlen => ?_⟩
  obtain ⟨t, hstep, hreply, -, hf⟩ := loadProgramOverflow s bytes rest htick hinbox hlen
  exact ⟨t, hstep, State.replyCode_of_loadOverflow hreply, State.faultCode_congr (hf.parts .fault (by decide))⟩

end Sys2Proof.Machine
end

section
/-! PROOFS. The reset event (`70_reset_and_hazards.md` R220). -/

namespace Sys2Proof.Machine

/-- After the reset event memory holds the font the machine has and zeros, whatever was stored before. -/
theorem eventReset_peek (s : State) (a : Nat) :
    (eventReset s).peek a = if h : a < 80 then s.font[a] else 0 :=
  Memory.read_nil s.font a

/-- Settles O16: the step is the event taken, which leaves the values of the reset state beside what the event keeps. -/
theorem resetEvent : Obligations.ResetEvent := by
  unfold Obligations.ResetEvent
  intro s rest htick hinbox
  obtain ⟨hv, hindex, hpc, -, hstack, hdt, hst, hfb, -, hwait, hfault, htone, -, -⟩ := resetState
  exact ⟨eventReset (s.quiet.setInbox rest), step_event htick hinbox, hv, hindex, hpc, eventReset_peek _, hstack, hdt,
    hst, hfb, hwait, hfault, htone, rfl, rfl, rfl, rfl, rfl, rfl⟩

end Sys2Proof.Machine
end
